-- ==== Sys2Proof/Word.lean ====
section
/-! DEFINITION. The words of the part: bytes of the two serial connections, and station time. -/

namespace Sys2Proof

/-- A byte of the command port, or the eight data bits of a shed-line character (data bit `i` is bit `i`). -/
abbrev Byte := BitVec 8

/-- Station time (00, Conventions): a 32-bit count of milliseconds from the last reset, which wraps. -/
abbrev Time := BitVec 32

end Sys2Proof
end

