-- ==== Sys2Proof/Syntax.lean ====
section
/-! DEFINITION. The commands of the block: one constructor for each row of spec/opcode_table.json. -/

namespace Sys2Proof

/-- What comes after the length byte of a command transaction (R172): as many bytes as it states, which are the
parameters, and the bytes beyond them, which are ignored. -/
structure Params where
  stated : List Byte
  beyond : List Byte
  deriving DecidableEq, Repr

/-- The samples of the ACK slot and of the NAK slot, sixteen each (R2, R5), as the other stations leave the line: bit
`i` is tick `i` of the slot, `true` for recessive. -/
structure SlotSamples where
  ack : BitVec 16
  nak : BitVec 16
  deriving DecidableEq, Repr

/-- The sender of a frame heard: the number in H2, and the samples of its frame's slots. -/
structure Sender where
  number : Byte
  slots : SlotSamples
  deriving DecidableEq, Repr

/-- The samples of a frame from tick 0 of H1 to the end of C2, and those of its slots (R2). -/
structure FrameSamples where
  body : List Bool
  slots : SlotSamples
  deriving DecidableEq, Repr

/-- A bit as a sender reads it back (R3): its place in its character, 1 for the start bit, and its ticks 0 to 10. -/
structure BitRead where
  place : Nat
  ticks : BitVec 11
  deriving DecidableEq, Repr

/-- One rising edge of the converter's clock (R87): the levels of the frame line and of the data line. -/
structure SampleEdge where
  frame : Bool
  data : Bool
  deriving DecidableEq, Repr

/-- The commands (events) of the table, in the table's order.
Host commands carry the bytes after the length byte (R172).  Samples of the line (R2) are `true` for recessive.  Frames
heard carry the sender with the slots, the invoice of H3 and H4, and the body fields of R6. -/
inductive Instr where
  | configure (params : Params)
  | goOnline (params : Params)
  | openInvoice (params : Params)
  | abandonInvoice (params : Params)
  | closeInvoice (params : Params)
  | releaseInvoice (params : Params)
  | startChest (params : Params)
  | abortChest (params : Params)
  | voidChest (params : Params)
  | recordSample (params : Params)
  | remark (params : Params)
  | binFill (params : Params)
  | binEmpty (params : Params)
  | binWithdraw (params : Params)
  | zeroScale (params : Params)
  | readInvoice (params : Params)
  | readChest (params : Params)
  | readBin (params : Params)
  | readLotSheet (params : Params)
  | readNotice (params : Params)
  | readFault (params : Params)
  | ackFault (params : Params)
  | readStatus (params : Params)
  | resetStation (params : Params)
  /-- A taken command whose code is none of the layout table. -/
  | unknownCommand (code : Byte) (params : Params)
  /-- A command transaction: the whole bytes that arrived, and whether chip select rose part way through a byte. -/
  | commandDiscarded (bytes : List Byte) (midByte : Bool)
  /-- A READ RESPONSE transaction: how many bytes the host clocks, the port byte among them. -/
  | readResponse (clocked : Nat)
  | responseReady
  | reset
  /-- The strap levels read as reset ends. -/
  | resetEnd (station : BitVec 5) (rate : BitVec 2)
  | lineIdle
  | lineHeld
  | beginFrame
  /-- Where the loss is read, character 1 for H1, with the bit as it is read. -/
  | arbitrationLost (char : Nat) (bit : BitRead)
  /-- Where the failure is read, character 1 for H1, with the bit as it is read. -/
  | lineDrive (char : Nat) (bit : BitRead)
  /-- The samples from tick 0 of H1 to the character that loses framing. -/
  | frameLost (samples : List Bool)
  /-- The samples from tick 0 of H1 to the end of H4. -/
  | frameFiltered (samples : List Bool)
  /-- The whole frame with its slots. -/
  | frameNaked (samples : FrameSamples)
  /-- The samples of the two slots, as the sender reads them back. -/
  | attemptEnd (ack nak : BitVec 16)
  | closeCallFrame (sender : Sender) (invoice : BitVec 16) (round packed planned : Byte)
  | closedFrame (sender : Sender) (invoice : BitVec 16) (status packed missing : Byte) (net : BitVec 24)
  | tallyFrame (sender : Sender) (invoice : BitVec 16) (answerTo planned high packed free inProgress : Byte)
      (net : BitVec 24)
  | claimFrame (sender : Sender) (invoice : BitVec 16) (planned first count : Byte)
  | chestFrame (sender : Sender) (invoice : BitVec 16) (serial : Byte) (gross tare net : BitVec 16) (flags : Byte)
      (draws : List (Byte × BitVec 16))
  | voidFrame (sender : Sender) (invoice : BitVec 16) (serial : Byte)
  | sampleFrame (sender : Sender) (invoice : BitVec 16) (serial : Byte) (weight : BitVec 16)
  | markFrame (sender : Sender) (invoice : BitVec 16) (serial status : Byte)
  | binFrame (sender : Sender) (invoice : BitVec 16) (bin action : Byte) (batch quantity : BitVec 16)
  | censusFrame (sender : Sender) (invoice : BitVec 16) (planned : Byte)
  | censusWindowEnd (invoice : Nat)
  | closeWindowEnd (invoice : Nat)
  | extensionEnd (invoice : Nat)
  /-- The clock edges of one word, or of what the converter sends in its place. -/
  | sampleWord (edges : List SampleEdge)
  | goodSample
  | sampleLoss
  | settleComplete
  | settleSlow
  | zeroScaleTimeout
  | noFlow
  | rejectPulseEnd
  /-- The new level of the CHEST input. -/
  | chestEdge (level : Bool)
  | holdActive
  | holdEnd
  | encoderPulse
  /-- The 32 bits read on DATA-IN during the SHIFT: bit `i` is the one read with the `i + 1`-th bit sent. -/
  | shiftDone (dataIn : BitVec 32)
  | firingPulseEnd
  /-- The samples since the line went IDLE or since the last row of this kind, to tick 10 of a start bit or short of it. -/
  | startConfirmed (samples : List Bool)
  deriving DecidableEq, Repr

end Sys2Proof
end

