-- ==== Sys2Proof/Decode.lean ====
section
/-! DEFINITION. The commands a word of bits spells: the table gives no row a bit pattern, so there are none. -/

namespace Sys2Proof

/-- No row of spec/opcode_table.json gives bits: no word spells a command. -/
def decodeTableWord (_nbits _w : Nat) : Option Instr := none

end Sys2Proof
end

