-- ==== Sys2Proof/Config.lean ====
section
/-! DEFINITION. Free values: what the manual gives no value for. -/

namespace Sys2Proof

/-- A byte of a response that the layouts place but give no value (log 19): text beyond its length, a value
whose field is absent and whose range holds 0.  Applied to the counter `State.spare`; nothing constrains it. -/
opaque Config.freeByte : Nat → Byte

/-- What the head's shift path holds where the manual gives no value (log 38): the ready bits between a capture and the
end of the SHIFT that reads them, and whatever a SHIFT cut short leaves.  Applied to the counter `Marker.unknown`;
nothing constrains it. -/
opaque Config.headBits : Nat → BitVec 32

end Sys2Proof
end

