-- ==== Sys2Proof/Machine/State.lean ====
section
/-! DEFINITION. The state of the part: what each of its thirteen blocks owns, its pins, and the queue of commands
waiting for it.  Plain data; `State.reset` is the machine as reset has ended. -/

namespace Sys2Proof.Machine

/-! ### Station state and Fault List (R165 to R171, R175) -/

/-- The station states (12, R175; 11, R169 to R171). -/
inductive StationState where
  | unconfigured | configured | online | halt | offline
  deriving DecidableEq, Repr

/-- The fault codes of R166. -/
inductive FaultCode where
  | strapInvalid | stationClash | lineDrive | sampleLoss | scaleSaturated
  | lineHeld | lineDispute | viewLost | planMismatch | storeFull | txQueueFull | noticeOverflow
  | settleSlow | headNozzle | markLate | binOverdraw | zeroDrift | chestOrphan
  deriving DecidableEq, Repr

/-- The cause state of a fault entry (R165). -/
inductive Cause where
  | present | cleared
  deriving DecidableEq, Repr

/-- An entry of the fault list (R165). -/
structure FaultEntry where
  code : FaultCode
  count : Nat
  cause : Cause
  first : Time
  latest : Time
  deriving DecidableEq, Repr

/-! ### Notice Queue (R178) -/

/-- The notice kinds 1 to 16 (R178). -/
inductive NoticeKind where
  | online | frameUnheard | serialsExhausted | viewCurrent | invoiceFull | binLow | wildFill | chestAccepted
  | chestRejected | orphanPacked | markDone | serialConflict | closeCalled | closeYielded | closeDone | invoiceClosed
  deriving DecidableEq, Repr

/-- A notice (R178). -/
structure Notice where
  kind : NoticeKind
  time : Time
  invoice : Option Nat
  serial : Option Nat
  value : Option Nat
  deriving DecidableEq, Repr

/-! ### Shed-line frames (R5, R6) and the Transmit Queue (R23 to R33) -/

/-- A draw: a bin and a quantity in document units. -/
structure Draw where
  bin : Nat
  quantity : Nat
  deriving DecidableEq, Repr

/-- The body of a CHEST frame (R6); serial 0 is a reject report.  `flags` is the flags character. -/
structure ChestReport where
  serial : Nat
  gross : Nat
  tare : Nat
  net : Nat
  flags : Nat
  draws : List Draw
  deriving DecidableEq, Repr

/-- The fields of a TALLY body (R6, R38). -/
structure Tally where
  answerTo : Nat
  planned : Nat
  high : Nat
  packed : Nat
  free : Nat
  inProgress : Nat
  net : Nat
  deriving DecidableEq, Repr

/-- A frame of the shed line: its kind with the invoice of H3, H4 and the body fields of R6. -/
inductive Frame where
  | closeCall (invoice round packed planned : Nat)
  | closed (invoice status packed missing net : Nat)
  | tally (invoice : Nat) (t : Tally)
  | claim (invoice planned first count : Nat)
  | void (invoice serial : Nat)
  | chest (invoice : Nat) (r : ChestReport)
  | sample (invoice serial weight : Nat)
  | mark (invoice serial status : Nat)
  | bin (invoice bin action batch quantity : Nat)
  | census (invoice planned : Nat)
  deriving DecidableEq, Repr

/-- A removal that fell due while the entry's attempt was under way (R30, R31): at the attempt's end a CLAIM is
applied (`apply`), or not, its record being gone by ABANDON INVOICE (`discard`). -/
inductive Removal where
  | none | apply | discard
  deriving DecidableEq, Repr

/-- An entry of the Transmit Queue (02, Queue contents). -/
structure TxEntry where
  frame : Frame
  attempts : Nat
  underWay : Bool
  removal : Removal
  deriving DecidableEq, Repr

/-- The content of the last CHEST frame taken from a sender (R32). -/
structure Repeat where
  invoice : Nat
  report : ChestReport
  deriving DecidableEq, Repr

/-! ### Invoice Table and Serial Allocator (R34, R53) -/

/-- Invoice states (R34). -/
inductive InvoiceState where
  | census | active | stale | closing | closed
  deriving DecidableEq, Repr

/-- The role in a close (R34). -/
inductive CloseRole where
  | peer | closer
  deriving DecidableEq, Repr

/-- The view of a record, WHOLE or PARTIAL (R46). -/
inductive View where
  | whole | short
  deriving DecidableEq, Repr

/-- The census phase of a record (R37); the window end is present in phase WINDOW. -/
inductive CensusPhase where
  | none | queued | window (ends : Time)
  deriving DecidableEq, Repr

/-- A recipe component (R80). -/
structure Component where
  bin : Nat
  share : Nat
  deriving DecidableEq, Repr

/-- An own claim that has completed an attempt and not yet left the queue (R53). -/
structure SentClaim where
  first : Nat
  count : Nat
  yielded : List Nat
  deriving DecidableEq, Repr

/-- An entry of the tally set (R34). -/
structure Tallied where
  station : Nat
  packed : Nat
  deriving DecidableEq, Repr

/-- An invoice record (R34), with the Serial Allocator's state for it (R53). -/
structure Invoice where
  number : Nat
  mark : List Byte
  grade : List Byte
  planned : Nat
  ceiling : Nat
  target : Nat
  tolerance : Nat
  tareMin : Nat
  tareMax : Nat
  recipe : List Component
  shareTolerance : Nat
  state : InvoiceState
  role : Option CloseRole
  view : View
  participants : List Nat
  high : Nat
  free : List Nat
  full : Bool
  phase : CensusPhase
  recount : Bool
  tallies : List Tallied
  sent : Option SentClaim
  surrendered : Nat
  deriving DecidableEq, Repr

/-! ### Bin Table (R69) -/

/-- Bin states (R69). -/
inductive BinState where
  | unknown | stocked | low | empty | withdrawn
  deriving DecidableEq, Repr

/-- A bin record (R69). -/
structure Bin where
  state : BinState
  batch : Option Nat
  remaining : Option Nat
  overdraw : Nat
  deriving DecidableEq, Repr

/-! ### Chest Store (R138) -/

/-- A record's origin (R138). -/
inductive Origin where
  | own | heard
  deriving DecidableEq, Repr

/-- Mark status (R6, R138). -/
inductive MarkStatus where
  | pending | good | defect | none
  deriving DecidableEq, Repr

/-- The key of a chest record within its invoice (R138): a PACKED record's serial, an ORPHAN record's reservation
number.  The record's state is PACKED or ORPHAN by this key. -/
inductive ChestKey where
  | packed (serial : Nat)
  | orphan (reservation : Nat)
  deriving DecidableEq, Repr

/-- A chest record (R138). -/
structure Chest where
  invoice : Nat
  key : ChestKey
  station : Nat
  origin : Origin
  gross : Nat
  tare : Nat
  net : Nat
  sample : Option Nat
  offBlend : Bool
  mark : MarkStatus
  draws : List Draw
  conflict : Option Nat
  deriving DecidableEq, Repr

/-! ### Close Unit (R149, R159, R160) -/

/-- The phase of a close round, with its end where it has one (R149). -/
inductive RoundPhase where
  | window (ends : Time)
  | callQueued
  | extension (ends : Time)
  deriving DecidableEq, Repr

/-- An entry of the answer table (R149). -/
structure Answer where
  station : Nat
  inProgress : Nat
  packed : Nat
  free : Nat
  net : Nat
  deriving DecidableEq, Repr

/-- A close round (R149). -/
structure Round where
  invoice : Nat
  number : Nat
  phase : RoundPhase
  extensions : Nat
  answers : List Answer
  deriving DecidableEq, Repr

/-- Lot status (R159); its number on a frame is 1, 2, 3. -/
inductive LotStatus where
  | complete | short | mismatched
  deriving DecidableEq, Repr

/-- A line of a lot sheet (R160). -/
structure LotLine where
  serial : Nat
  station : Nat
  gross : Nat
  tare : Nat
  net : Nat
  sample : Option Nat
  offBlend : Bool
  unmarked : Bool
  conflict : Option Nat
  deriving DecidableEq, Repr

/-- A lot sheet (R159, R160). -/
structure LotSheet where
  invoice : Nat
  mark : List Byte
  grade : List Byte
  planned : Nat
  packed : Nat
  status : LotStatus
  gross : Nat
  tare : Nat
  net : Nat
  samples : Nat
  offBlend : Nat
  unmarked : Nat
  conflicts : Nat
  missing : List Nat
  unconfirmed : List Nat
  inProgress : List Nat
  closerInProgress : Bool
  reportedPacked : Nat
  reportedNet : Nat
  reportedSurrendered : Nat
  lines : List LotLine
  deriving DecidableEq, Repr

/-! ### Settings given by CONFIGURE (R79, R100, R176) -/

/-- A used feeder's settings (R79, R100). -/
structure Feeder where
  bin : Nat
  fineBand : Nat
  initial : Nat
  deriving DecidableEq, Repr

/-- The values CONFIGURE hands to the Serial Allocator and the Bin Table (R176). -/
structure Settings where
  blockSize : Nat
  lowThreshold : Nat
  deriving DecidableEq, Repr

/-- The straps as read (R175). -/
structure Straps where
  station : Nat
  rate : Nat
  deriving DecidableEq, Repr

/-! ### The tables of the shed and host edges -/

/-- What the blocks IT, SA, TQ, BT, CS, CU, FL and NQ own, with station time and the values they are settled by;
`released` has the invoices whose lot sheet was freed with their record and whose number is not open again (R49; log 43).
The operations of those blocks take `Books` to `Books`, so they touch neither the lane nor the line nor the port. -/
structure Books where
  time : Time
  straps : Straps
  station : StationState
  onlineWait : Bool
  settings : Option Settings
  feeders : Vector (Option Feeder) 4
  faults : List FaultEntry
  notices : List Notice
  tx : List TxEntry
  repeats : Vector (Option Repeat) 31
  invoices : List Invoice
  bins : Vector Bin 64
  chests : List Chest
  reservation : Option Nat
  reservationCounter : Nat
  rounds : List Round
  sheets : List LotSheet
  released : List Nat
  deriving DecidableEq, Repr

/-! ### Line Controller -/

/-- The line state (R8). -/
inductive LineLevel where
  | idle | busy | held
  deriving DecidableEq, Repr

/-- The station's role in the current frame.  `receiver live` follows another station's frame; `live` says that its
start was confirmed in ONLINE or HALT (R21, R22). -/
inductive LineRole where
  | none | sender | receiver (live : Bool)
  deriving DecidableEq, Repr

/-- One character as a receiver sampled it (R3 to R5): its eight data bits, its mark bit and its stop bit, each `true`
for recessive.  `stop = false` is a framing error. -/
structure RxChar where
  data : Byte
  mark : Bool
  stop : Bool
  deriving DecidableEq, Repr

/-- A receiver taking the line sample by sample (R2 to R4): the recessive run, the two latest samples, the next tick of
the character in progress (absent while it hunts for a start) with that character's levels so far, whether it counts
whole characters after a framing error (R16), and the characters it has. -/
structure Receiver where
  recessive : Nat
  latest : Bool × Bool
  tick : Option Nat
  bits : List Bool
  counting : Bool
  chars : List RxChar
  deriving DecidableEq, Repr

/-- The slot this station drove in the latest frame (R16, R18). -/
inductive Slot where
  | none | ack | nak
  deriving DecidableEq, Repr

/-- The receive assembler (01, Receiving a frame): whole characters so far, the bits so far of the character in
progress (`true` recessive), how many characters are expected once that is known, and whether an error is found. -/
structure Assembler where
  chars : List Byte
  bits : List Bool
  expected : Option Nat
  error : Bool
  deriving DecidableEq, Repr

/-- The Line Controller's state.  `candidate` has the ticks so far of a start candidate that is being checked in IDLE, tick
0 first, and is empty when none is (R3, R10). -/
structure Line where
  level : LineLevel
  recessiveRun : Nat
  dominantRun : Nat
  role : LineRole
  assembler : Assembler
  lost : Bool
  slot : Slot
  candidate : List Bool
  deriving DecidableEq, Repr

/-! ### Weigh Channel (R86) -/

/-- The scale values given by CONFIGURE; the zero is replaced by zero capture and ZERO SCALE. -/
structure Scale where
  window : Nat
  c10 : Nat
  zero : Int
  capacity : Nat
  motion : Nat
  settle : Nat
  deriving DecidableEq, Repr

/-- A word in the holding register, with the station time of its completion (R88). -/
structure Held where
  count : Int
  time : Time
  deriving DecidableEq, Repr

/-- A good sample in the window (R89). -/
structure Sample where
  count : Int
  saturated : Bool
  deriving DecidableEq, Repr

/-- A valid reading, as of the last reading update (R92, R93). -/
structure Reading where
  mean : Int
  weight : Int
  isOver : Bool
  deriving DecidableEq, Repr

/-- Who asks for a settle (R95). -/
inductive Requester where
  | fill | capture | zeroScale
  deriving DecidableEq, Repr

/-- A settle request (R95), with whether SETTLE_SLOW has been raised for it (R96). -/
structure SettleRequest where
  who : Requester
  time : Time
  slow : Bool
  deriving DecidableEq, Repr

/-- The Weigh Channel's state (R86).  `reading` is absent while the reading is invalid. -/
structure Weigh where
  scale : Option Scale
  word : Option (List Bool)
  holding : Option Held
  window : List Sample
  lastGood : Option Time
  saturatedSince : Option Time
  saturationRaised : Bool
  lossFound : Bool
  reading : Option Reading
  steady : Bool
  request : Option SettleRequest
  timer : Nat
  deriving DecidableEq, Repr

/-! ### Fill Sequencer (R100) -/

/-- The fill step (12, Response data); components count from 1. -/
inductive FillStep where
  | idle | armed | tare | feed (k : Nat) | settle (k : Nat) | topup | check | accept | reject | mark | clear
  deriving DecidableEq, Repr

/-- The one gate that may be open, and how far (R101). -/
inductive Gate where
  | closed | coarse (feeder : Nat) | fine (feeder : Nat)
  deriving DecidableEq, Repr

/-- The reject reasons (R116). -/
inductive RejectReason where
  | tareRange | overweight | underweight | surplus | aborted | halted | chestLost
  deriving DecidableEq, Repr

/-- How a top-up feed ended: at its cutoff (or not opened), or by no-flow (R111, R121). -/
inductive TopupEnd where
  | cutoff | noFlow
  deriving DecidableEq, Repr

/-- What the chest in progress holds for one component (R100). -/
structure CompState where
  feeder : Nat
  target : Nat
  cumulative : Nat
  coarseCut : Option Int
  fineCut : Option Int
  settled : Option Int
  actual : Int
  short : Bool
  opened : Bool
  fine : Bool
  deriving DecidableEq, Repr

/-- The chest-in-progress record (R100).  `freed` says that the invoice's record has been freed since START CHEST, so that
a record under the number is not the chest's any more (R50, R115, R139). -/
structure Fill where
  invoice : Nat
  freed : Bool
  reservation : Nat
  target : Nat
  tolerance : Nat
  tareMin : Nat
  tareMax : Nat
  recipe : List Component
  shareTolerance : Nat
  comps : List CompState
  tare : Option Int
  lastNet : Option Int
  topupDone : Bool
  topupComp : Option Nat
  netBefore : Option Int
  topupEnd : Option TopupEnd
  net : Option Int
  serial : Option Nat
  reason : Option RejectReason
  deriving DecidableEq, Repr

/-- The no-flow watch: reference net and timer (R106). -/
structure FlowWatch where
  reference : Int
  timer : Nat
  deriving DecidableEq, Repr

/-- The Fill Sequencer's state (R100). -/
structure Filler where
  step : FillStep
  fill : Option Fill
  gate : Gate
  flow : Option FlowWatch
  rejectTimer : Nat
  remembered : Bool
  inflight : Vector Nat 4
  deriving DecidableEq, Repr

/-! ### Marking Engine (R125) -/

/-- The head settings of CONFIGURE when a head is present (R126). -/
structure Head where
  nozzle32First : Bool
  activeLow : Bool
  deriving DecidableEq, Repr

/-- The chain states (R125). -/
inductive Chain where
  | headIdle | capture | shift | wait
  deriving DecidableEq, Repr

/-- What CLK and MODE show (R125, R126), as far as the manual says: their rest levels, or the operation that they select. -/
inductive ChainLevel where
  | rest
  | operation (chain : Chain)
  deriving DecidableEq, Repr

/-- Who asked for the mark (R125). -/
inductive MarkFor where
  | fill | remark
  deriving DecidableEq, Repr

/-- A mark job (R125).  Nozzle `n` is bit `n - 1` of the two sets; `ready` is absent until the first SHIFT is done. -/
structure Job where
  invoice : Nat
  serial : Nat
  requester : MarkFor
  line1 : List Byte
  line2 : List Byte
  markLength : Nat
  positions : Nat
  position : Nat
  late : Nat
  usedRows : BitVec 32
  ready : Option (BitVec 32)
  defect : Bool
  deriving DecidableEq, Repr

/-- The Marking Engine's state (R125), with the head's shift path and latch (R126): bit `n - 1` is nozzle `n`.  `sends`
are the bits that the latest SHIFT sends on DATA-OUT, in order; `unknown` counts the free values that the path has held. -/
structure Marker where
  head : Option Head
  chain : Chain
  job : Option Job
  firing : Option Time
  path : BitVec 32
  latch : BitVec 32
  sends : List Bool
  unknown : Nat
  deriving DecidableEq, Repr

/-! ### Command Port (R172, R173) -/

/-- The status codes of R174. -/
inductive Status where
  | ok | busy | badConfig | range | badText | duplicate | tableFull | noFeeder | notActive | notClosed | notOwn
  | partialView | binUnavailable | binShort | listFull | sampled | notSteady | noLot | causePresent | notPresent
  | halted | wrongState | unknownCommand
  deriving DecidableEq, Repr

/-- A response (R173): the code answered, the status and the data. -/
structure Response where
  code : Byte
  status : Status
  data : List Byte
  deriving DecidableEq, Repr

/-- The Command Port's state.  `command` is the code of the command being processed, `reply` its response once it is
made and not yet in the buffer; `miso` the bytes returned in the latest transaction. -/
structure Port where
  busy : Bool
  ready : Bool
  command : Option Byte
  reply : Option Response
  buffer : Option Response
  miso : List Byte
  deriving DecidableEq, Repr

/-- The levels of the lane's two sensing inputs. -/
structure Pins where
  hold : Bool
  chest : Bool
  deriving DecidableEq, Repr

/-- The whole machine. -/
structure State where
  pending : List Instr
  inReset : Bool
  pins : Pins
  books : Books
  line : Line
  weigh : Weigh
  filler : Filler
  marker : Marker
  port : Port
  spare : Nat
  deriving DecidableEq, Repr

/-- Why the machine stops with a fault: nothing.  Every fault of the manual is an entry of the fault list (R165),
and the station goes on; so this type has no constructor. -/
inductive Fault where
  deriving DecidableEq, Repr

/-- Why a command is refused as one without a meaning. -/
inductive Refusal where
  /-- Raised by an arm of `exec` for a row not modelled yet: no arm raises it.  Safe. -/
  | notModelled (mnemonic : String)
  deriving DecidableEq, Repr

/-! ### Reset (R175 and each block's reset values) -/

/-- A bin record after reset (R69). -/
def Bin.reset : Bin := { state := .unknown, batch := none, remaining := none, overdraw := 0 }

/-- The tables after reset: each empty or absent, station time 0, UNCONFIGURED.  The straps are inputs: station 1,
rate 0.  DESIGN CHOICE (log 5). -/
def Books.reset : Books where
  time := 0
  straps := { station := 1, rate := 0 }
  station := .unconfigured
  onlineWait := false
  settings := none
  feeders := Vector.replicate 4 none
  faults := []
  notices := []
  tx := []
  repeats := Vector.replicate 31 none
  invoices := []
  bins := Vector.replicate 64 Bin.reset
  chests := []
  reservation := none
  reservationCounter := 0
  rounds := []
  sheets := []
  released := []

/-- The empty assembler (01, Receiving a frame). -/
def Assembler.empty : Assembler := { chars := [], bits := [], expected := none, error := false }

/-- The Line Controller after reset: BUSY with both runs 0 (R8). -/
def Line.reset : Line :=
  { level := .busy, recessiveRun := 0, dominantRun := 0, role := .none, assembler := .empty, lost := false, slot := .none,
    candidate := [] }

/-- The Weigh Channel after reset (R86). -/
def Weigh.reset : Weigh where
  scale := none
  word := none
  holding := none
  window := []
  lastGood := none
  saturatedSince := none
  saturationRaised := false
  lossFound := false
  reading := none
  steady := false
  request := none
  timer := 0

/-- The Fill Sequencer after reset (R100). -/
def Filler.reset : Filler where
  step := .idle
  fill := none
  gate := .closed
  flow := none
  rejectTimer := 0
  remembered := false
  inflight := Vector.replicate 4 0

/-- The Marking Engine after reset (R125).  The head's path and latch are the head's own: 0.
DESIGN CHOICE (log 6). -/
def Marker.reset : Marker :=
  { head := none, chain := .headIdle, job := none, firing := none, path := 0, latch := 0, sends := [], unknown := 0 }

/-- The Command Port after reset (R172). -/
def Port.reset : Port :=
  { busy := false, ready := false, command := none, reply := none, buffer := none, miso := [] }

/-- The machine as reset has ended, with valid straps, HOLD inactive and CHEST low (log 5) and no command waiting. -/
def State.reset : State where
  pending := []
  inReset := false
  pins := { hold := false, chest := false }
  books := .reset
  line := .reset
  weigh := .reset
  filler := .reset
  marker := .reset
  port := .reset
  spare := 0

end Sys2Proof.Machine
end

