-- ==== Sys2Proof/Machine/Ops.lean ====
section
/-! DEFINITION. The operations every block shares: rounding, station time, keyed lists, the fault list, the notice
queue, access to the tables, and the outputs computed from the state. -/

namespace Sys2Proof.Machine

/-! ### Arithmetic (00, Rounding) -/

/-- `n / d` rounded half up (00, Rounding). -/
def roundHalfUp (n d : Nat) : Nat := (2 * n + d) / (2 * d)

/-- `n / d` rounded half away from zero (00, Rounding). -/
def roundHalfAway (n : Int) (d : Nat) : Int :=
  if n < 0 then -((2 * n.natAbs + d) / (2 * d) : Nat) else ((2 * n.natAbs + d) / (2 * d) : Nat)

/-- `v` limited to `lo` to `hi`. -/
def clamp (lo hi v : Int) : Int := max lo (min hi v)

/-! ### Station time (00, Conventions) -/

/-- The station time `ms` after `t`; it wraps. -/
def later (t : Time) (ms : Nat) : Time := t + BitVec.ofNat 32 ms

/-- How many ms from `now` until the station time `due`: 0 once it is reached.  A time lying at most half the range
back counts as reached (log 27). -/
def msUntil (due now : Time) : Nat := if (now - due).toNat < 2 ^ 31 then 0 else (due - now).toNat

/-- How many ms `start` lies back at `now`. -/
def msSince (start now : Time) : Nat := (now - start).toNat

/-! ### Keyed lists -/

/-- `n` in its place in an ascending list without repeats. -/
def insertAsc (n : Nat) : List Nat → List Nat
  | [] => [n]
  | m :: l => if n < m then n :: m :: l else if n = m then m :: l else m :: insertAsc n l

/-- `x` put under its key in a list ascending by key: in place of the entry with that key, if there is one. -/
def putBy {α : Type} (key : α → Nat) (x : α) : List α → List α
  | [] => [x]
  | y :: l => if key x < key y then x :: y :: l else if key x = key y then x :: l else y :: putBy key x l

/-! ### The fault list (R165, R166) -/

/-- The code number of a fault (R166). -/
def FaultCode.num : FaultCode → Nat
  | .strapInvalid => 1 | .stationClash => 2 | .lineDrive => 3 | .sampleLoss => 4 | .scaleSaturated => 5
  | .lineHeld => 16 | .lineDispute => 17 | .viewLost => 18 | .planMismatch => 19 | .storeFull => 20
  | .txQueueFull => 21 | .noticeOverflow => 22 | .settleSlow => 23 | .headNozzle => 24 | .markLate => 25
  | .binOverdraw => 26 | .zeroDrift => 27 | .chestOrphan => 28

/-- The event faults of R166: the cause counts as cleared at once. -/
def FaultCode.isEvent : FaultCode → Bool
  | .lineDrive | .lineDispute | .viewLost | .planMismatch | .txQueueFull | .markLate | .binOverdraw | .zeroDrift
  | .chestOrphan => true
  | .strapInvalid | .stationClash | .sampleLoss | .scaleSaturated | .lineHeld | .storeFull | .noticeOverflow
  | .settleSlow | .headNozzle => false

/-- The severe faults that halt the lane, codes 3 to 5 (R169). -/
def FaultCode.halts : FaultCode → Bool
  | .lineDrive | .sampleLoss | .scaleSaturated => true
  | .strapInvalid | .stationClash | .lineHeld | .lineDispute | .viewLost | .planMismatch | .storeFull | .txQueueFull
  | .noticeOverflow | .settleSlow | .headNozzle | .markLate | .binOverdraw | .zeroDrift | .chestOrphan => false

/-- The severe faults, codes 1 to 5 (R166). -/
def FaultCode.severe : FaultCode → Bool
  | .strapInvalid | .stationClash | .lineDrive | .sampleLoss | .scaleSaturated => true
  | .lineHeld | .lineDispute | .viewLost | .planMismatch | .storeFull | .txQueueFull
  | .noticeOverflow | .settleSlow | .headNozzle | .markLate | .binOverdraw | .zeroDrift | .chestOrphan => false

/-- The entry of the fault list for a code. -/
def Books.fault? (b : Books) (c : FaultCode) : Option FaultEntry := b.faults.find? (fun e => e.code = c)

/-- The cause state a raise gives (R165). -/
def FaultCode.raisedCause (c : FaultCode) : Cause := if c.isEvent then .cleared else .present

/-- The entry a raise at time `t` leaves, from the entry that stands (R165). -/
def raisedEntry (c : FaultCode) (t : Time) : Option FaultEntry → FaultEntry
  | none => { code := c, count := 1, cause := c.raisedCause, first := t, latest := t }
  | some e => { e with count := min 255 (e.count + 1), cause := c.raisedCause, latest := t }

/-- A raise of a fault, in the list alone (R165); what a severe raise does to the station is `raiseSevere`'s. -/
def Books.raiseFault (b : Books) (c : FaultCode) : Books :=
  { b with faults := putBy (fun e => e.code.num) (raisedEntry c b.time (b.fault? c)) b.faults }

/-- The clearing condition of a fault arrives (R166): without effect when no entry stands. -/
def Books.clearCause (b : Books) (c : FaultCode) : Books :=
  { b with faults := b.faults.map (fun e => if e.code = c then { e with cause := .cleared } else e) }

/-- The entry of a code leaves the list (R168). -/
def Books.dropFault (b : Books) (c : FaultCode) : Books :=
  { b with faults := b.faults.filter (fun e => e.code ≠ c) }

/-- Some entry of codes 3 to 5 stands. -/
def Books.anyHalting (b : Books) : Bool := b.faults.any (fun e => e.code.halts)

/-- Some severe entry, codes 1 to 5, stands. -/
def Books.anySevere (b : Books) : Bool := b.faults.any (fun e => e.code.severe)

/-! ### The notice queue (R178) -/

/-- The number of a notice kind (R178). -/
def NoticeKind.num : NoticeKind → Nat
  | .online => 1 | .frameUnheard => 2 | .serialsExhausted => 3 | .viewCurrent => 4 | .invoiceFull => 5 | .binLow => 6
  | .wildFill => 7 | .chestAccepted => 8 | .chestRejected => 9 | .orphanPacked => 10 | .markDone => 11
  | .serialConflict => 12 | .closeCalled => 13 | .closeYielded => 14 | .closeDone => 15 | .invoiceClosed => 16

/-- A notice is raised: it joins as the newest, or is dropped with NOTICE_OVERFLOW when 32 are held (R178). -/
def Books.raiseNotice (b : Books) (kind : NoticeKind) (invoice serial value : Option Nat) : Books :=
  if b.notices.length < 32 then { b with notices := b.notices ++ [⟨kind, b.time, invoice, serial, value⟩] }
  else b.raiseFault .noticeOverflow

/-! ### Settings -/

/-- The claim block size (R55); none is held before CONFIGURE, when no claim is made (log 32). -/
def Books.blockSize (b : Books) : Nat := (b.settings.map (·.blockSize)).getD 0

/-- The low threshold (R70); none is held before CONFIGURE, when no bin changes (log 32). -/
def Books.lowThreshold (b : Books) : Nat := (b.settings.map (·.lowThreshold)).getD 0

/-- The number, 1 to 4, of the feeder that serves a bin, or 0 (R79). -/
def Books.feederOf (b : Books) (bin : Nat) : Nat :=
  match b.feeders.toList.findIdx? (fun f => f.any (fun f => f.bin = bin)) with
  | some i => i + 1
  | none => 0

/-- The fine band of a feeder (R100). -/
def Books.fineBand (b : Books) (feeder : Nat) : Nat :=
  ((b.feeders[feeder - 1]?.getD none).map (·.fineBand)).getD 0

/-! ### The invoice table (R34) -/

/-- The record of an invoice. -/
def Books.invoice? (b : Books) (n : Nat) : Option Invoice := b.invoices.find? (fun r => r.number = n)

/-- The record of an invoice is present. -/
def Books.hasInvoice (b : Books) (n : Nat) : Bool := (b.invoice? n).isSome

/-- The record of an invoice changed by `f`, which keeps its number. -/
def Books.modifyInvoice (b : Books) (n : Nat) (f : Invoice → Invoice) : Books :=
  { b with invoices := b.invoices.map (fun r => if r.number = n then f r else r) }

/-- An open invoice: in state CENSUS, ACTIVE or STALE (R34). -/
def InvoiceState.isOpen : InvoiceState → Bool
  | .census | .active | .stale => true
  | .closing | .closed => false

/-! ### The chest store (R138) -/

/-- The serial of a PACKED record. -/
def Chest.serial? (c : Chest) : Option Nat :=
  match c.key with
  | .packed n => some n
  | .orphan _ => none

/-- The reservation number of an ORPHAN record. -/
def Chest.orphan? (c : Chest) : Option Nat :=
  match c.key with
  | .packed _ => none
  | .orphan n => some n

/-- The place of a record in the store's list: by invoice, PACKED by serial, then ORPHAN by reservation number. -/
def Chest.order (c : Chest) : Nat :=
  match c.key with
  | .packed n => 1024 * c.invoice + n
  | .orphan n => 1024 * c.invoice + 512 + n

/-- The PACKED records of an invoice, ascending by serial. -/
def Books.packed (b : Books) (n : Nat) : List Chest :=
  b.chests.filter (fun c => c.invoice = n && c.serial?.isSome)

/-- The packed count of an invoice (R34). -/
def Books.packedCount (b : Books) (n : Nat) : Nat := (b.packed n).length

/-- The own PACKED records of an invoice. -/
def Books.ownPacked (b : Books) (n : Nat) : List Chest := (b.packed n).filter (fun c => c.origin = .own)

/-- The own packed count of an invoice (R34). -/
def Books.ownPackedCount (b : Books) (n : Nat) : Nat := (b.ownPacked n).length

/-- The own net total of an invoice (R38). -/
def Books.ownNet (b : Books) (n : Nat) : Nat := ((b.ownPacked n).map (·.net)).sum

/-- The PACKED record under (invoice, serial). -/
def Books.chest? (b : Books) (invoice serial : Nat) : Option Chest :=
  b.chests.find? (fun c => c.invoice = invoice && c.key = .packed serial)

/-- The free slots of the store: neither reserved nor holding a record (R138). -/
def Books.freeSlots (b : Books) : Nat :=
  256 - b.chests.length - (if b.reservation.isSome then 1 else 0)

/-- A record put under its key. -/
def Books.putChest (b : Books) (c : Chest) : Books := { b with chests := putBy Chest.order c b.chests }

/-- The cause of STORE_FULL clears when 2 or more slots are free (R142). -/
def Books.noteSlots (b : Books) : Books := if 2 ≤ b.freeSlots then b.clearCause .storeFull else b

/-- The records for which `p` holds leave, and their slots become free. -/
def Books.dropChests (b : Books) (p : Chest → Bool) : Books :=
  ({ b with chests := b.chests.filter (fun c => !p c) } : Books).noteSlots

/-- The reserved slot becomes free (R139). -/
def Books.dropReservation (b : Books) : Books := ({ b with reservation := none } : Books).noteSlots

/-! ### The bin table (R69) -/

/-- The record of bin 1 to 64; a record is present for every bin number. -/
def Books.bin (b : Books) (n : Nat) : Bin := (b.bins[n - 1]?).getD Bin.reset

/-- A bin's record replaced; there is no bin 0. -/
def Books.setBin (b : Books) (n : Nat) (r : Bin) : Books :=
  if n = 0 then b else { b with bins := b.bins.setIfInBounds (n - 1) r }

/-! ### Replacing one block's part of the machine -/

/-- The tables replaced. -/
def State.setBooks (s : State) (b : Books) : State := { s with books := b }

/-- The Line Controller's state replaced. -/
def State.setLine (s : State) (l : Line) : State := { s with line := l }

/-- The Weigh Channel's state replaced. -/
def State.setWeigh (s : State) (w : Weigh) : State := { s with weigh := w }

/-- The Fill Sequencer's state replaced. -/
def State.setFiller (s : State) (f : Filler) : State := { s with filler := f }

/-- The Marking Engine's state replaced. -/
def State.setMarker (s : State) (m : Marker) : State := { s with marker := m }

/-- The Command Port's state replaced. -/
def State.setPort (s : State) (p : Port) : State := { s with port := p }

/-- The input levels replaced. -/
def State.setPins (s : State) (p : Pins) : State := { s with pins := p }

/-- The queue of waiting commands replaced. -/
def State.setPending (s : State) (l : List Instr) : State := { s with pending := l }

/-! ### What other blocks ask of the Fill Sequencer -/

/-- The steps ARMED to CHECK, in which a fill is in progress for its invoice (R103). -/
def FillStep.inFill : FillStep → Bool
  | .armed | .tare | .feed _ | .settle _ | .topup | .check => true
  | .idle | .accept | .reject | .mark | .clear => false

/-- The invoice whose record the chest was started for: none once that record has been freed, even where the number has
been opened again (R50, R115). -/
def Fill.held (f : Fill) : Option Nat := if f.freed then none else some f.invoice

/-- The invoice of the fill in progress, in ARMED to CHECK (R38, R103); a fill whose record has been freed is in progress
for no invoice (log 44). -/
def State.filling (s : State) : Option Nat := if s.filler.step.inFill then s.filler.fill.bind Fill.held else none

/-- ONLINE or HALT: the states in which frames are followed in full (R21). -/
def StationState.onLine : StationState → Bool
  | .online | .halt => true
  | .unconfigured | .configured | .offline => false

/-! ### Outputs (R101, R179) -/

/-- A feeder's coarse output (R101). -/
def State.coarseOut (s : State) (feeder : Nat) : Bool :=
  s.filler.gate = .coarse feeder && !s.pins.hold && s.books.station ≠ .offline

/-- A feeder's fine output (R101). -/
def State.fineOut (s : State) (feeder : Nat) : Bool :=
  s.filler.gate = .fine feeder && !s.pins.hold && s.books.station ≠ .offline

/-- OUTFEED RUN (R101, R118, R119, R136): on in MARK, in CLEAR while CHEST is high, and for a REMARK mark. -/
def State.outfeedRun (s : State) : Bool :=
  (s.filler.step = .mark || (s.filler.step = .clear && s.pins.chest)
    || s.marker.job.any (fun j => j.requester = .remark))
  && !s.pins.hold && s.books.station ≠ .offline && !s.inReset

/-- REJECT (R101, R117): on for the pulse. -/
def State.rejectOut (s : State) : Bool :=
  s.filler.step = .reject && !s.pins.hold && s.books.station ≠ .offline && !s.inReset

/-- NOTICE (R179): asserted while the notice queue or the fault list holds anything. -/
def State.noticeOut (s : State) : Bool := !s.books.notices.isEmpty || !s.books.faults.isEmpty

end Sys2Proof.Machine
end

