-- ==== Sys2Proof/Machine/Operands.lean ====
section
/-! DEFINITION. The operand forms: parameter bytes of the command port, the characters of the shed line's frames with
their check and their ranges, what a receiver finds in the characters it gets, and the bytes of responses. -/

namespace Sys2Proof.Machine

/-! ### Bytes of the command port (R173: high byte first, signed in two's complement) -/

/-- The byte at an index, as a number. -/
def byteAt (p : List Byte) (i : Nat) : Nat := (p[i]?.getD 0).toNat

/-- A two-byte value, high byte first. -/
def num2 (p : List Byte) (i : Nat) : Nat := 256 * byteAt p i + byteAt p (i + 1)

/-- A three-byte value, high byte first. -/
def num3 (p : List Byte) (i : Nat) : Nat := 256 * num2 p i + byteAt p (i + 2)

/-- A three-byte signed value, high byte first. -/
def signed3 (p : List Byte) (i : Nat) : Int :=
  if num3 p i < 2 ^ 23 then (num3 p i : Int) else (num3 p i : Int) - 2 ^ 24

/-- A value as one byte. -/
def be1 (v : Nat) : List Byte := [BitVec.ofNat 8 v]

/-- A value as two bytes, high byte first. -/
def be2 (v : Nat) : List Byte := [BitVec.ofNat 8 (v / 256), BitVec.ofNat 8 v]

/-- A value as three bytes, high byte first. -/
def be3 (v : Nat) : List Byte := BitVec.ofNat 8 (v / 65536) :: be2 v

/-- A value as four bytes, high byte first. -/
def be4 (v : Nat) : List Byte := BitVec.ofNat 8 (v / 16777216) :: be3 v

/-- A signed value as three bytes in two's complement. -/
def beSigned3 (v : Int) : List Byte := be3 (BitVec.ofInt 24 v).toNat

/-- A flag as one byte. -/
def beFlag (b : Bool) : List Byte := be1 (if b then 1 else 0)

/-- A value that may be absent and whose range excludes 0, as one byte: 0 when absent (12, Layouts). -/
def beOpt1 (v : Option Nat) : List Byte := be1 (v.getD 0)

/-- A list of one-byte values in a field of fixed width, entries beyond the list 0.  DEDUCED (log 20). -/
def beList (width : Nat) (l : List Nat) : List Byte :=
  (l ++ List.replicate (width - l.length) 0).map (BitVec.ofNat 8)

/-- `k` free bytes from index `n` (log 19). -/
def freeBytes (n k : Nat) : List Byte := (List.range k).map (fun i => Config.freeByte (n + i))

/-- A text field of fixed width: its length, its characters, and bytes beyond the length, which mean nothing and are
free from index `n` (log 19). -/
def textField (width n : Nat) (t : List Byte) : List Byte :=
  be1 t.length ++ t ++ freeBytes n (width - t.length)

/-! ### The glyph set (R35, R128; 12, Layouts) -/

/-- The 40 characters of the glyph set, by their codes: 0 to 9, A to Z, space, hyphen, full stop, slash. -/
def isGlyph (c : Byte) : Bool :=
  (0x30 ≤ c && c ≤ 0x39) || (0x41 ≤ c && c ≤ 0x5A) || c == 0x20 || c == 0x2D || c == 0x2E || c == 0x2F

/-! ### Frames (R5, R6) -/

/-- The kind number of H1 (R6). -/
def Frame.kind : Frame → Nat
  | .closeCall .. => 1 | .closed .. => 2 | .tally .. => 3 | .claim .. => 4 | .void .. => 5
  | .chest .. => 6 | .sample .. => 7 | .mark .. => 8 | .bin .. => 9 | .census .. => 10

/-- The invoice of H3 and H4. -/
def Frame.invoice : Frame → Nat
  | .closeCall n _ _ _ | .closed n _ _ _ _ | .tally n _ | .claim n _ _ _ | .void n _ | .chest n _
  | .sample n _ _ | .mark n _ _ | .bin n _ _ _ _ | .census n _ => n

/-- The serial that FRAME_UNHEARD carries: of CHEST, VOID, SAMPLE and MARK (R27, R178).  A reject report's serial is
0, which the layouts send for an absent one. -/
def Frame.serial? : Frame → Option Nat
  | .chest _ r => some r.serial
  | .void _ n | .sample _ n _ | .mark _ n _ => some n
  | .closeCall .. | .closed .. | .tally .. | .claim .. | .bin .. | .census .. => none

/-- A frame is a TALLY (R23). -/
def Frame.isTally (f : Frame) : Bool := f.kind = 3

/-- The kinds whose frames the topic filter looks at: all but CHEST and BIN (R6, R15). -/
def kindFiltered (kind : Nat) : Bool := kind ≠ 6 && kind ≠ 9

/-- A draw's three body characters (R6): the low 16 bits of a draw above 65,535, by the model's choice (log 51). -/
def Draw.bytes (d : Draw) : List Byte := be1 d.bin ++ be2 d.quantity

/-- The body characters of a frame, in order (R6). -/
def Frame.body : Frame → List Byte
  | .closeCall _ round packed planned => be1 round ++ be1 packed ++ be1 planned
  | .closed _ status packed missing net => be1 status ++ be1 packed ++ be1 missing ++ be3 net
  | .tally _ t =>
    be1 t.answerTo ++ be1 t.planned ++ be1 t.high ++ be1 t.packed ++ be1 t.free ++ be1 t.inProgress ++ be3 t.net
  | .claim _ planned first count => be1 planned ++ be1 first ++ be1 count
  | .void _ serial => be1 serial
  | .chest _ r =>
    be1 r.serial ++ be2 r.gross ++ be2 r.tare ++ be2 r.net ++ be1 r.flags ++ be1 r.draws.length
      ++ r.draws.flatMap Draw.bytes
  | .sample _ serial weight => be1 serial ++ be2 weight
  | .mark _ serial status => be1 serial ++ be1 status
  | .bin _ number action batch quantity => be1 number ++ be1 action ++ be2 batch ++ be2 quantity
  | .census _ planned => be1 planned

/-- The bits of a character in reverse order (R5, for H1 and H2). -/
def mirror (b : Byte) : Byte :=
  BitVec.ofNat 8 (128 * b.toNat % 256 + 64 * (b.toNat / 2 % 2) + 32 * (b.toNat / 4 % 2) + 16 * (b.toNat / 8 % 2)
    + 8 * (b.toNat / 16 % 2) + 4 * (b.toNat / 32 % 2) + 2 * (b.toNat / 64 % 2) + b.toNat / 128)

/-- H1 to the last body character: the characters the check covers (R5, R7). -/
def frameData (sender : Nat) (f : Frame) : List Byte :=
  mirror (BitVec.ofNat 8 f.kind) :: mirror (BitVec.ofNat 8 sender) :: be2 f.invoice ++ f.body

/-- One bit enters the check register (R7). -/
def crcBit (reg : BitVec 16) (bit : Bool) : BitVec 16 :=
  if bit != reg.getLsbD 15 then (reg <<< 1) ^^^ 0x1021 else reg <<< 1

/-- A character's data bits enter the check register, data bit 0 first (R7). -/
def crcByte (reg : BitVec 16) (b : Byte) : BitVec 16 :=
  [0, 1, 2, 3, 4, 5, 6, 7].foldl (fun r i => crcBit r (b.getLsbD i)) reg

/-- The check of a run of characters (R7). -/
def crc (bytes : List Byte) : BitVec 16 := bytes.foldl crcByte 0xFFFF

/-- All the characters of a frame, H1 to C2 (R5). -/
def frameBytes (sender : Nat) (f : Frame) : List Byte :=
  frameData sender f ++ be2 (crc (frameData sender f)).toNat

/-- The marks of a frame's characters: recessive in the four header characters, dominant after them (R4). -/
def withMarks : Nat → List Byte → List RxChar
  | _, [] => []
  | i, b :: l => ⟨b, i < 4, true⟩ :: withMarks (i + 1) l

/-- A frame's characters as a receiver samples them on a sound line. -/
def frameChars (sender : Nat) (f : Frame) : List RxChar := withMarks 0 (frameBytes sender f)

/-- The eleven bits of a character, `true` recessive: start, data bits 0 to 7, mark, stop (01, Characters). -/
def RxChar.bits (c : RxChar) : List Bool :=
  false :: [0, 1, 2, 3, 4, 5, 6, 7].map (fun i => c.data.getLsbD i) ++ [c.mark, c.stop]

/-! ### Samples (R2 to R4) -/

/-- The samples of a run of ticks, in order. -/
def samplesOf {w : Nat} (ticks : BitVec w) : List Bool := (List.range w).map (fun i => ticks.getLsbD i)

/-- The samples of bits that are driven whole, sixteen each (R2). -/
def drivenSamples (bits : List Bool) : List Bool := bits.flatMap (List.replicate 16)

/-- A frame's samples on a sound line, its characters back to back (R4). -/
def frameSamples (sender : Nat) (f : Frame) : List Bool := drivenSamples ((frameChars sender f).flatMap RxChar.bits)

/-- The majority of the three samples of a bit, `true` recessive (R3). -/
def majority (a b c : Bool) : Bool := (a && b) || (a && c) || (b && c)

/-- The level of a bit from its ticks: the majority of ticks 8, 9 and 10 (R3). -/
def levelOf {w : Nat} (ticks : BitVec w) : Bool := majority (ticks.getLsbD 8) (ticks.getLsbD 9) (ticks.getLsbD 10)

/-- The character of eleven levels (R4, R5). -/
def charOf (bits : List Bool) : RxChar :=
  { data := BitVec.ofNat 8 ((((bits.drop 1).take 8).reverse).foldl (fun a b => 2 * a + (if b then 1 else 0)) 0),
    mark := bits[9]?.getD false, stop := bits[10]?.getD false }

/-- A receiver that hunts for a start after a recessive run. -/
def Receiver.hunting (recessive : Nat) : Receiver :=
  { recessive := recessive, latest := (true, true), tick := none, bits := [], counting := false, chars := [] }

/-- A receiver at tick 0 of a start candidate. -/
def Receiver.atStart : Receiver := { Receiver.hunting 0 with tick := some 0 }

/-- One more sample, the tick `t` of the character in progress: ticks 8 to 10 of each bit give its level; a start bit
that reads recessive is false; after tick 10 of the stop bit the receiver hunts again, or, after a framing error,
counts whole characters of 176 ticks (R3, R4, R16). -/
def Receiver.inChar (r : Receiver) (t : Nat) (sample : Bool) : Receiver :=
  let level := majority r.latest.1 r.latest.2 sample
  let bits := if t % 16 = 10 then r.bits ++ [level] else r.bits
  let r' := { r with latest := (r.latest.2, sample), tick := some (t + 1), bits := bits }
  if t = 10 && level && !r.counting then { r' with tick := none, bits := [] }
  else if t = 170 then
    let lost := r.counting || !level
    { r' with chars := r.chars ++ [charOf bits], bits := [], counting := lost, tick := if lost then some 171 else none }
  else if t = 175 then { r' with tick := some 0 }
  else r'

/-- One more sample (R2, R3): a hunting receiver takes the first dominant sample after at least three recessive ones as
tick 0 of a start bit. -/
def Receiver.sample (r : Receiver) (sample : Bool) : Receiver :=
  let run := if sample then r.recessive + 1 else 0
  match r.tick with
  | some t => { r.inChar t sample with recessive := run }
  | none =>
    if !sample && 3 ≤ r.recessive then { r with recessive := run, latest := (r.latest.2, sample), tick := some 1 }
    else { r with recessive := run, latest := (r.latest.2, sample) }

/-- The samples of a stretch of the line, one after the other. -/
def Receiver.take (r : Receiver) (samples : List Bool) : Receiver := samples.foldl Receiver.sample r

/-- The line stays BUSY through the samples, after runs of `recessive` and `dominant` ones: neither run reaches the 176 of
IDLE or the 384 of HELD (R8). -/
def keepsBusy : Nat → Nat → List Bool → Bool
  | _, _, [] => true
  | recessive, _, true :: l => recessive < 175 && keepsBusy (recessive + 1) 0 l
  | _, dominant, false :: l => dominant < 383 && keepsBusy 0 (dominant + 1) l

/-- The characters in the samples of a frame, from tick 0 of H1 on (R3, R4): none when the line becomes IDLE or HELD among
them, for a receiver waits no longer than that for the next character, and the frame is over (R4, R9, R14). -/
def assembled (samples : List Bool) : List RxChar :=
  if keepsBusy 0 0 samples then (Receiver.atStart.take samples).chars else []

/-- A receiver that hunts in IDLE: within the start candidate whose ticks so far are given, or, when there are none, after
a recessive run (R3). -/
def Receiver.seeking (recessive : Nat) (candidate : List Bool) : Receiver :=
  if candidate = [] then .hunting recessive else Receiver.atStart.take candidate

/-- The receiver is past tick 10 of a start bit, which has confirmed the start (R3). -/
def Receiver.confirmed (r : Receiver) : Bool := r.tick.any (fun t => 11 ≤ t)

/-- The hunt goes on through the samples until one of them confirms a start. -/
def Receiver.seek (r : Receiver) (samples : List Bool) : Receiver :=
  samples.foldl (fun r x => if r.confirmed then r else r.sample x) r

/-- The ticks of the candidate that the receiver is checking, which are the latest of these samples; none when it checks
none. -/
def Receiver.checking (r : Receiver) (samples : List Bool) : List Bool :=
  samples.drop (samples.length - r.tick.getD 0)

/-! ### Ranges (R6, R17) -/

/-- `v` lies in `lo` to `hi`, both included. -/
def inside (lo hi v : Nat) : Bool := lo ≤ v && v ≤ hi

/-- The ranges of a CHEST body, with the rules of R17 on its weights and flags. -/
def ChestReport.inRange (r : ChestReport) : Bool :=
  inside 0 99 r.serial && inside 0 65535 r.gross && inside 0 65535 r.tare && inside 0 65535 r.net && r.flags ≤ 1
  && inside 1 4 r.draws.length && r.draws.all (fun d => inside 1 64 d.bin && inside 0 65535 d.quantity)
  && (if r.serial = 0 then r.gross = 0 && r.tare = 0 && r.net = 0 && r.flags = 0 else r.gross = r.tare + r.net)

/-- The ranges of a frame's body fields (R6). -/
def Frame.bodyInRange : Frame → Bool
  | .closeCall _ round packed planned => inside 1 2 round && inside 0 99 packed && inside 1 99 planned
  | .closed _ status packed missing net =>
    inside 1 3 status && inside 0 99 packed && inside 0 99 missing && inside 0 16777215 net
  | .tally _ t =>
    inside 1 2 t.answerTo && inside 1 99 t.planned && inside 0 99 t.high && inside 0 99 t.packed
      && inside 0 16 t.free && inside 0 1 t.inProgress && inside 0 16777215 t.net
  | .claim _ planned first count =>
    inside 1 99 planned && inside 1 99 first && inside 1 8 count && first + count ≤ 100
  | .void _ serial => inside 1 99 serial
  | .chest _ r => r.inRange
  | .sample _ serial weight => inside 1 99 serial && inside 1 50 weight
  | .mark _ serial status => inside 1 99 serial && inside 1 4 status
  | .bin _ number action batch quantity =>
    inside 1 64 number && inside 1 3 action && inside 0 65535 batch && inside 0 65535 quantity
  | .census _ planned => inside 1 99 planned

/-- The checks of R17 on a whole frame from station `sender`. -/
def Frame.inRange (sender : Nat) (f : Frame) : Bool :=
  inside 1 31 sender && (if f.kind = 9 then f.invoice = 0 else inside 1 9999 f.invoice) && f.bodyInRange

/-! ### What a receiver finds in the characters it gets (R14 to R18) -/

/-- The draws of a CHEST body, `k` groups of three from index `i` on. -/
def readDraws (p : List Byte) : Nat → Nat → List Draw
  | _, 0 => []
  | i, k + 1 => ⟨byteAt p i, num2 p (i + 1)⟩ :: readDraws p (i + 3) k

/-- The frame that the characters H1 to the last body character carry (R5, R6); absent for a kind outside 1 to 10. -/
def readFrame (p : List Byte) : Option Frame :=
  let n := num2 p 2
  match (mirror (BitVec.ofNat 8 (byteAt p 0))).toNat with
  | 1 => some (.closeCall n (byteAt p 4) (byteAt p 5) (byteAt p 6))
  | 2 => some (.closed n (byteAt p 4) (byteAt p 5) (byteAt p 6) (num3 p 7))
  | 3 => some (.tally n ⟨byteAt p 4, byteAt p 5, byteAt p 6, byteAt p 7, byteAt p 8, byteAt p 9, num3 p 10⟩)
  | 4 => some (.claim n (byteAt p 4) (byteAt p 5) (byteAt p 6))
  | 5 => some (.void n (byteAt p 4))
  | 6 => some (.chest n ⟨byteAt p 4, num2 p 5, num2 p 7, num2 p 9, byteAt p 11, readDraws p 13 (byteAt p 12)⟩)
  | 7 => some (.sample n (byteAt p 4) (num2 p 5))
  | 8 => some (.mark n (byteAt p 4) (byteAt p 5))
  | 9 => some (.bin n (byteAt p 4) (byteAt p 5) (num2 p 6) (num2 p 8))
  | 10 => some (.census n (byteAt p 4))
  | _ => none

/-- The number of body characters of a kind; for CHEST with `n` draws (R6). -/
def bodyLength (kind n : Nat) : Nat :=
  match kind with
  | 1 => 3 | 2 => 6 | 3 => 9 | 4 => 3 | 5 => 1 | 6 => 9 + 3 * n | 7 => 3 | 8 => 2 | 9 => 6 | _ => 1

/-- Every character from index `i` on is framed, with its mark where R4 puts it. -/
def allSound : Nat → List RxChar → Bool
  | _, [] => true
  | i, c :: l => c.stop && (c.mark == decide (i < 4)) && allSound (i + 1) l

/-- What a receiver makes of the characters it has. -/
inductive Verdict where
  | unfinished
  | lost
  | filtered
  | naked
  | taken (sender : Nat) (f : Frame)
  deriving DecidableEq, Repr

/-- The end of a frame whose length is known and all of whose characters are there (R16 to R18). -/
def judgeWhole (cs : List RxChar) : Verdict :=
  let p := cs.map (·.data)
  let sender := (mirror (BitVec.ofNat 8 (byteAt p 1))).toNat
  if !allSound 0 cs then .naked
  else if (crc (p.take (p.length - 2))).toNat ≠ num2 p (p.length - 2) then .naked
  else
    match readFrame (p.take (p.length - 2)) with
    | none => .naked
    | some f => if f.inRange sender then .taken sender f else .naked

/-- What a receiver finds, where `has n` says that invoice `n` is in its table: framing lost (R14), filtered out
after H4 (R15), NAKed (R16, R17), or taken (R18). -/
def judge (has : Nat → Bool) (cs : List RxChar) : Verdict :=
  let p := cs.map (·.data)
  let kind := (mirror (BitVec.ofNat 8 (byteAt p 0))).toNat
  if cs.length = 0 then .unfinished
  else if !allSound 0 (cs.take 1) || !inside 1 10 kind then .lost
  else if kind = 6 then
    if !allSound 0 (cs.take 13) then .lost
    else if cs.length < 13 then .unfinished
    else if !inside 1 4 (byteAt p 12) then .lost
    else if cs.length ≠ 6 + bodyLength 6 (byteAt p 12) then .unfinished
    else judgeWhole cs
  else if cs.length < 4 then .unfinished
  else if kindFiltered kind && allSound 0 (cs.take 4) && !has (num2 p 2) then .filtered
  else if cs.length ≠ 6 + bodyLength kind 0 then .unfinished
  else judgeWhole cs

/-! ### The numbers of the response layouts (12, Response data) -/

/-- The status codes of R174. -/
def Status.code : Status → Byte
  | .ok => 0x00 | .busy => 0x01 | .badConfig => 0x02 | .range => 0x03 | .badText => 0x04 | .duplicate => 0x05
  | .tableFull => 0x06 | .noFeeder => 0x07 | .notActive => 0x08 | .notClosed => 0x09 | .notOwn => 0x0A
  | .partialView => 0x0B | .binUnavailable => 0x0C | .binShort => 0x0D | .listFull => 0x0E | .sampled => 0x10
  | .notSteady => 0x11 | .noLot => 0x12 | .causePresent => 0x13 | .notPresent => 0x14 | .halted => 0x15
  | .wrongState => 0x16 | .unknownCommand => 0x17

/-- Station state on the port. -/
def StationState.num : StationState → Nat
  | .unconfigured => 1 | .configured => 2 | .online => 3 | .halt => 4 | .offline => 5

/-- Line state on the port. -/
def LineLevel.num : LineLevel → Nat
  | .idle => 1 | .busy => 2 | .held => 3

/-- Invoice state on the port. -/
def InvoiceState.num : InvoiceState → Nat
  | .census => 1 | .active => 2 | .stale => 3 | .closing => 4 | .closed => 5

/-- Role on the port. -/
def CloseRole.num : Option CloseRole → Nat
  | none => 0 | some .peer => 1 | some .closer => 2

/-- View on the port and in VIEW_CURRENT. -/
def View.num : View → Nat
  | .whole => 1 | .short => 2

/-- Census phase on the port. -/
def CensusPhase.num : CensusPhase → Nat
  | .none => 0 | .queued => 1 | .window _ => 2

/-- Bin state on the port. -/
def BinState.num : BinState → Nat
  | .unknown => 0 | .stocked => 1 | .low => 2 | .empty => 3 | .withdrawn => 4

/-- Mark status on a MARK frame and on the port (R6). -/
def MarkStatus.num : MarkStatus → Nat
  | .pending => 1 | .good => 2 | .defect => 3 | .none => 4

/-- The mark status a MARK frame carries (R6). -/
def MarkStatus.ofNum : Nat → MarkStatus
  | 1 => .pending | 2 => .good | 3 => .defect | _ => .none

/-- Fill step on the port. -/
def FillStep.num : FillStep → Nat
  | .idle => 0 | .armed => 1 | .tare => 2 | .feed _ => 3 | .settle _ => 4 | .topup => 5 | .check => 6
  | .accept => 7 | .reject => 8 | .mark => 9 | .clear => 10

/-- The component index on the port, or 0; in TOPUP too it is 0: the model's choice (log 45). -/
def FillStep.index : FillStep → Nat
  | .feed k | .settle k => k
  | .idle | .armed | .tare | .topup | .check | .accept | .reject | .mark | .clear => 0

/-- Chain state on the port. -/
def Chain.num : Chain → Nat
  | .headIdle => 0 | .capture => 1 | .shift => 2 | .wait => 3

/-- Settle requester on the port. -/
def Requester.num : Requester → Nat
  | .fill => 1 | .capture => 2 | .zeroScale => 3

/-- Lot status on a CLOSED frame and on the port. -/
def LotStatus.num : LotStatus → Nat
  | .complete => 1 | .short => 2 | .mismatched => 3

/-- Reject reason in CHEST_REJECTED (R116). -/
def RejectReason.num : RejectReason → Nat
  | .tareRange => 1 | .overweight => 2 | .underweight => 3 | .surplus => 4 | .aborted => 5 | .halted => 6
  | .chestLost => 7

/-- Cause state on the port. -/
def Cause.num : Cause → Nat
  | .present => 1 | .cleared => 2

/-- The fault code of a number (R166). -/
def FaultCode.ofNum (n : Nat) : Option FaultCode :=
  [FaultCode.strapInvalid, .stationClash, .lineDrive, .sampleLoss, .scaleSaturated, .lineHeld, .lineDispute, .viewLost,
   .planMismatch, .storeFull, .txQueueFull, .noticeOverflow, .settleSlow, .headNozzle, .markLate, .binOverdraw,
   .zeroDrift, .chestOrphan].find? (fun c => c.num = n)

/-- The bytes of a response after the port byte (R173). -/
def Response.bytes (r : Response) : List Byte := r.code :: r.status.code :: be1 r.data.length ++ r.data

end Sys2Proof.Machine
end

