-- ==== Sys2Proof/Machine/Flags.lean ====
section
/-! DEFINITION. The judged values: the reading, OVER and steadiness, the zero band, the FULL flag, OFF_BLEND and the
document weights, adaptation, and the port byte. -/

namespace Sys2Proof.Machine

/-! ### The reading (R89, R92 to R94) -/

/-- A good sample's count is saturated (R89). -/
def saturatedCount (count : Int) : Bool := 8388592 ≤ count || count ≤ -8388592

/-- A count or mean as a weight in weigh units against the present zero (R92). -/
def Scale.weightOf (sc : Scale) (count : Int) : Int := roundHalfAway ((count - sc.zero) * 1000) sc.c10

/-- The window holds W samples and none is saturated (R89). -/
def Scale.windowGood (sc : Scale) (w : List Sample) : Bool := w.length = sc.window && w.all (fun x => !x.saturated)

/-- The reading at an update: mean, weight and OVER; absent when invalid (R89, R92, R93). -/
def Scale.readingOf (sc : Scale) (w : List Sample) : Option Reading :=
  if sc.windowGood w then
    let mean := roundHalfAway (w.map (·.count)).sum sc.window
    let weight := sc.weightOf mean
    some { mean := mean, weight := weight, isOver := (sc.capacity : Int) < weight }
  else none

/-- Any two sample weights of the window differ by at most the motion band (R94). -/
def Scale.steadyOf (sc : Scale) (w : List Sample) : Bool :=
  sc.windowGood w
    && w.all (fun x => w.all (fun y => sc.weightOf x.count - sc.weightOf y.count ≤ (sc.motion : Int)))

/-- A settled reading lies in the zero band, -200 to +200, and is not OVER (R97, R98). -/
def Reading.inZeroBand (r : Reading) : Bool := -200 ≤ r.weight && r.weight ≤ 200 && !r.isOver

/-! ### The FULL flag (R47) -/

/-- FULL evaluated for an invoice: in an open state it is set when the packed count is at least the ceiling, and
INVOICE_FULL is raised when it changes from clear to set. -/
def Books.evalFull (b : Books) (n : Nat) : Books :=
  match b.invoice? n with
  | none => b
  | some r =>
    if r.state.isOpen then
      let full := decide (r.ceiling ≤ b.packedCount n)
      let b' := b.modifyInvoice n (fun r => { r with full := full })
      if full && !r.full then b'.raiseNotice .invoiceFull (some n) none none else b'
    else b

/-! ### The acceptance arithmetic (R114) -/

/-- A component's share of the chest net, in per-mille (R114). -/
def shareOf (actual net : Int) : Nat := roundHalfUp ((max 0 actual).toNat * 1000) net.toNat

/-- A draw from a component's actual, in document units (R114).  It is not held to the 65,535 of R6 and R138: the model's
choice (log 51). -/
def drawOf (actual : Int) : Nat := roundHalfUp (max 0 actual).toNat 10

/-- The draws of a fill, one per component in recipe order (R114). -/
def Fill.draws (f : Fill) : List Draw :=
  List.zipWith (fun c p => { bin := c.bin, quantity := drawOf p.actual }) f.recipe f.comps

/-- OFF_BLEND: some share differs from its recipe share by more than the share tolerance (R114). -/
def Fill.offBlend (f : Fill) (net : Int) : Bool :=
  (List.zipWith (fun (c : Component) (p : CompState) =>
    decide (f.shareTolerance < max (shareOf p.actual net - c.share) (c.share - shareOf p.actual net)))
    f.recipe f.comps).any id

/-- Doc gross: the gross reading in document units (R114). -/
def docGross (tare net : Int) : Nat := roundHalfUp (tare + net).toNat 10

/-- Doc tare (R114). -/
def docTare (tare : Int) : Nat := roundHalfUp tare.toNat 10

/-- A chest has drawn when any component's opened mark is set (R112). -/
def Fill.drawn (f : Fill) : Bool := f.comps.any (fun c => c.opened)

/-! ### Adaptation (R109) -/

/-- The in-flight value after an error of -200 to +200: moved by a quarter of it, limited to 0 to 300 (R109). -/
def adapted (value : Nat) (error : Int) : Nat := (clamp 0 300 (value + roundHalfAway error 4)).toNat

/-! ### The port byte (R172) -/

/-- The port byte: BUSY, RESPONSE READY and the level of NOTICE (R172). -/
def State.portByte (s : State) : Byte :=
  BitVec.ofNat 8 ((if s.port.busy then 1 else 0) + (if s.port.ready then 2 else 0) + (if s.noticeOut then 4 else 0))

end Sys2Proof.Machine
end

