-- ==== Sys2Proof/Machine/Bins.lean ====
section
/-! DEFINITION. The Bin Table's operations: BIN actions, draws, component targets and the bin checks (05). -/

namespace Sys2Proof.Machine

/-- FILL: a new batch; LOW when the quantity is below the threshold, with BIN_LOW (R70, R71). -/
def Books.fillBin (b : Books) (n batch quantity : Nat) : Books :=
  let low := decide (quantity < b.lowThreshold)
  let b' := b.setBin n { b.bin n with
    state := if low then .low else .stocked, batch := some batch, remaining := some quantity }
  if low then b'.raiseNotice .binLow none none (some n) else b'

/-- The batch code after EMPTY or WITHDRAW: kept, or taken from the frame when the record is UNKNOWN (R72). -/
def Bin.batchAfter (r : Bin) (batch : Nat) : Option Nat := if r.state = .unknown then some batch else r.batch

/-- EMPTY: remaining 0; the batch code is kept, or taken from the frame when UNKNOWN (R72). -/
def Books.emptyBin (b : Books) (n batch : Nat) : Books :=
  b.setBin n { b.bin n with state := .empty, batch := (b.bin n).batchAfter batch, remaining := some 0 }

/-- WITHDRAW: remaining and batch code are kept, or taken from the frame when UNKNOWN (R72). -/
def Books.withdrawBin (b : Books) (n batch quantity : Nat) : Books :=
  b.setBin n { b.bin n with
    state := .withdrawn, batch := (b.bin n).batchAfter batch,
    remaining := if (b.bin n).state = .unknown then some quantity else (b.bin n).remaining }

/-- A BIN frame's action: 1 FILL, 2 EMPTY, 3 WITHDRAW (R6, R71, R72). -/
def Books.binAction (b : Books) (n action batch quantity : Nat) : Books :=
  match action with
  | 1 => b.fillBin n batch quantity
  | 2 => b.emptyBin n batch
  | 3 => b.withdrawBin n batch quantity
  | _ => b

/-- A record lowered by a draw `d`: clamped at 0, a deficit joining the overdraw total, which saturates (R77). -/
def Bin.lowered (r : Bin) (d : Nat) : Bin :=
  let have_ := r.remaining.getD 0
  { r with remaining := some (have_ - d), overdraw := min 65535 (r.overdraw + (d - have_)) }

/-- A draw on a bin that is counted: the remaining is lowered, and a deficit raises BIN_OVERDRAW (R77). -/
def Books.lowerBin (b : Books) (n d : Nat) : Books :=
  let b' := b.setBin n ((b.bin n).lowered d)
  if (b.bin n).remaining.getD 0 < d then b'.raiseFault .binOverdraw else b'

/-- A STOCKED bin below the threshold goes LOW, with BIN_LOW (R70, R76). -/
def Books.enterLow (b : Books) (n : Nat) : Books :=
  if (b.bin n).remaining.getD 0 < b.lowThreshold then
    (b.setBin n { b.bin n with state := .low }).raiseNotice .binLow none none (some n)
  else b

/-- A draw acts on its bin by the bin's state; a draw of 0 changes nothing (R76). -/
def Books.draw (b : Books) (d : Draw) : Books :=
  if d.quantity = 0 then b
  else
    match (b.bin d.bin).state with
    | .unknown | .empty => b
    | .stocked => (b.lowerBin d.bin d.quantity).enterLow d.bin
    | .low | .withdrawn => b.lowerBin d.bin d.quantity

/-- The draws of a CHEST frame, one by one in the frame's order (R75). -/
def Books.drawAll (b : Books) (ds : List Draw) : Books := ds.foldl Books.draw b

/-- The component targets of a recipe for a chest target: each floored, the last taking what is left (R81).
`left` is what of `target` the components before have not taken. -/
def targetsFrom (target : Nat) : Nat → List Component → List Nat
  | _, [] => []
  | left, [_] => [left]
  | left, c :: l => target * c.share / 1000 :: targetsFrom target (left - target * c.share / 1000) l

/-- The component targets t_1 to t_m (R81). -/
def targets (target : Nat) (recipe : List Component) : List Nat := targetsFrom target target recipe

/-- The bin check of one component (R82): the refusal it gives, if any. -/
def Books.binCheck (b : Books) (n target : Nat) : Option Status :=
  match (b.bin n).state with
  | .empty | .withdrawn => some .binUnavailable
  | .stocked | .low => if (b.bin n).remaining.getD 0 < roundHalfUp target 10 then some .binShort else none
  | .unknown => none

/-- The bin checks of a recipe, in recipe order: the first refusal, with its bin (R82). -/
def Books.binChecks (b : Books) : List (Component × Nat) → Option (Status × Nat)
  | [] => none
  | (c, t) :: l =>
    match b.binCheck c.bin t with
    | some st => some (st, c.bin)
    | none => b.binChecks l

end Sys2Proof.Machine
end

