-- ==== Sys2Proof/Machine/Serials.lean ====
section
/-! DEFINITION. The Serial Allocator's work on one invoice's high mark, free list, sent claim and close surrender
count (04).  `fill` is the invoice of the fill in progress, ARMED to CHECK. -/

namespace Sys2Proof.Machine

/-- The yielded set of the sent claim. -/
def Invoice.yielded (r : Invoice) : List Nat := (r.sent.map (·.yielded)).getD []

/-- A serial lies in the range of the sent claim. -/
def Invoice.sentCovers (r : Invoice) (x : Nat) : Bool :=
  r.sent.any (fun c => c.first ≤ x && x < c.first + c.count)

/-- The first three conditions of R57 on a claimed serial: not above the ceiling, not yielded, on no chest record. -/
def Books.claimable (b : Books) (r : Invoice) (x : Nat) : Bool :=
  x ≤ r.ceiling && !r.yielded.contains x && (b.chest? r.number x).isNone

/-- One serial of an own claim being applied, by the invoice's state (R57). -/
def Books.takeClaimed (b : Books) (fill : Option Nat) (r : Invoice) (x : Nat) : Invoice :=
  if b.claimable r x then
    match r.state with
    | .census | .active | .stale => if r.free.length < 16 then { r with free := insertAsc x r.free } else r
    | .closing =>
      if r.free = [] && fill = some r.number then { r with free := [x] }
      else { r with surrendered := r.surrendered + 1 }
    | .closed => { r with surrendered := r.surrendered + 1 }
  else r

/-- An own claim is applied to its record, if it is present: the high mark covers it, its serials are dealt with in
ascending order, and the sent claim becomes absent (R57). -/
def Books.applyOwnClaim (b : Books) (fill : Option Nat) (n first count : Nat) : Books :=
  b.modifyInvoice n (fun r =>
    { (List.range' first count).foldl (b.takeClaimed fill) { r with high := max r.high (first + count - 1) } with
      sent := none })

/-- The first attempt of an own CLAIM is completed: the sent claim is set and the high mark covers it (R56). -/
def Books.claimSent (b : Books) (n first count : Nat) : Books :=
  b.modifyInvoice n (fun r =>
    { r with sent := some ⟨first, count, []⟩, high := max r.high (first + count - 1) })

/-- The free serials are surrendered at the entry to CLOSING, but for the lowest when a fill for the invoice is in
progress (R64). -/
def Invoice.surrender (r : Invoice) (filling : Bool) : Invoice :=
  match r.free with
  | [] => r
  | x :: l =>
    if filling then { r with free := [x], surrendered := r.surrendered + l.length }
    else { r with free := [], surrendered := r.surrendered + (l.length + 1) }

/-- The whole free list is surrendered and counted (R65). -/
def Invoice.surrenderAll (r : Invoice) : Invoice :=
  { r with free := [], surrendered := r.surrendered + r.free.length }

/-- A fill has ended without a serial: in CLOSING a serial kept for it is surrendered; else nothing (R65, R117). -/
def Books.surrenderKept (b : Books) (n : Nat) : Books :=
  b.modifyInvoice n (fun r => if r.state = .closing then r.surrenderAll else r)

/-- A free serial that a CLAIM heard names leaves the list, and is counted in CLOSING and CLOSED (R58). -/
def Invoice.giveUp (r : Invoice) (first count : Nat) : Invoice :=
  let kept := r.free.filter (fun x => !(first ≤ x && x < first + count))
  { r with
    free := kept,
    surrendered := if r.state.isOpen then r.surrendered else r.surrendered + (r.free.length - kept.length) }

/-- A serial of the sent claim's range joins its yielded set (R58, R60). -/
def Invoice.yield (r : Invoice) (x : Nat) : Invoice :=
  if r.sentCovers x then
    { r with sent := r.sent.map (fun c => { c with yielded := insertAsc x c.yielded }) }
  else r

/-- The free list of an invoice's record. -/
def Books.freeOf (b : Books) (n : Nat) : List Nat := ((b.invoice? n).map (·.free)).getD []

end Sys2Proof.Machine
end

