-- ==== Sys2Proof/Machine/Closing.lean ====
section
/-! DEFINITION. Entries leaving the Transmit Queue by removal (R30, R31), and the entry of a record to CLOSING and to
CLOSED (R42, R43), with the creation of the closer's round (R151). -/

namespace Sys2Proof.Machine

/-! ### Removal of entries (R30, R31) -/

/-- The entry is a CLAIM for the invoice. -/
def TxEntry.isClaimOf (n : Nat) (e : TxEntry) : Bool := e.frame.kind = 4 && e.frame.invoice = n

/-- The entry is a CENSUS for the invoice. -/
def TxEntry.isCensusOf (n : Nat) (e : TxEntry) : Bool := e.frame.kind = 10 && e.frame.invoice = n

/-- The entry is a CLOSE CALL for the invoice. -/
def TxEntry.isCallOf (n : Nat) (e : TxEntry) : Bool := e.frame.kind = 1 && e.frame.invoice = n

/-- The entry is a TALLY for the invoice. -/
def TxEntry.isTallyOf (n : Nat) (e : TxEntry) : Bool := e.frame.kind = 3 && e.frame.invoice = n

/-- A removed CLAIM that has completed an attempt is applied as an own claim; nothing else is (R30). -/
def Books.applyRemoved (fill : Option Nat) (b : Books) (e : TxEntry) : Books :=
  match e.frame with
  | .claim n _ first count => if 1 ≤ e.attempts then b.applyOwnClaim fill n first count else b
  | .closeCall .. | .closed .. | .tally .. | .void .. | .chest .. | .sample .. | .mark .. | .bin .. | .census .. => b

/-- The entries with `p` are removed; one whose attempt is under way keeps its place, marked to leave at the
attempt's end (R30).  `how` says whether a removed CLAIM may be applied: a removal by ABANDON INVOICE takes the place of
an earlier mark, since its CLAIM is not applied at all (R48, R50, R68). -/
def Books.removeEntries (b : Books) (fill : Option Nat) (how : Removal) (p : TxEntry → Bool) : Books :=
  let gone := b.tx.filter (fun e => p e && !e.underWay)
  let kept := b.tx.filter (fun e => !(p e && !e.underWay))
  let b' := { b with
    tx := kept.map (fun e =>
      if p e && (e.removal = .none || how = .discard) then { e with removal := how } else e) }
  if how = .apply then gone.foldl (Books.applyRemoved fill) b' else b'

/-! ### Entering CLOSING and CLOSED (R42, R43) -/

/-- The census work of a record ends without effects (R37, R42). -/
def Invoice.endCensus (r : Invoice) : Invoice := { r with phase := .none, recount := false, tallies := [] }

/-- An open record enters CLOSING in a role (R42): the census ends, CLAIM and CENSUS entries leave (R30), and the
free serials are surrendered (R64). -/
def Books.enterClosing (b : Books) (fill : Option Nat) (n : Nat) (role : CloseRole) : Books :=
  let b₁ := b.modifyInvoice n (fun r => { r.endCensus with state := .closing, role := some role })
  let b₂ := b₁.removeEntries fill .apply (fun e => e.isClaimOf n || e.isCensusOf n)
  b₂.modifyInvoice n (fun r => r.surrender (fill = some n))

/-- A record enters CLOSED in a role (R43): from an open state with every effect of R42 first; CLOSE CALL entries
leave (R30), and a serial kept for a fill is surrendered (R65). -/
def Books.enterClosed (b : Books) (fill : Option Nat) (n : Nat) (role : CloseRole) : Books :=
  let b₁ := if (b.invoice? n).any (fun r => r.state.isOpen) then b.enterClosing fill n .peer else b
  let b₂ := b₁.modifyInvoice n (fun r => { r.endCensus with state := .closed, role := some role })
  let b₃ := b₂.removeEntries fill .apply (fun e => e.isClaimOf n || e.isCensusOf n || e.isCallOf n)
  b₃.modifyInvoice n Invoice.surrenderAll

/-! ### The closer's round (R149, R151) -/

/-- The round held for an invoice. -/
def Books.round? (b : Books) (n : Nat) : Option Round := b.rounds.find? (fun r => r.invoice = n)

/-- The round of an invoice changed by `f`, which keeps its invoice. -/
def Books.modifyRound (b : Books) (n : Nat) (f : Round → Round) : Books :=
  { b with rounds := b.rounds.map (fun r => if r.invoice = n then f r else r) }

/-- A round is created. -/
def Books.putRound (b : Books) (r : Round) : Books := { b with rounds := putBy (fun x => x.invoice) r b.rounds }

/-- The round of an invoice ends. -/
def Books.dropRound (b : Books) (n : Nat) : Books := { b with rounds := b.rounds.filter (fun r => r.invoice ≠ n) }

/-- The own free count of a close answer: the close surrender count, at most 16 (R64, R153). -/
def Books.closeFree (b : Books) (n : Nat) : Nat := min 16 (((b.invoice? n).map (·.surrendered)).getD 0)

/-- The closer's own entry in the answer table (R151, R154). -/
def Books.ownAnswer (b : Books) (n inProgress : Nat) : Answer :=
  { station := b.straps.station, inProgress := inProgress, packed := b.ownPackedCount n, free := b.closeFree n,
    net := b.ownNet n }

/-- An answer joins the answer table, or replaces its station's (R155). -/
def Round.record (r : Round) (a : Answer) : Round :=
  { r with answers := putBy (fun x => x.station) a r.answers }

/-- 1 when the fill in progress is for the invoice (R38, R153). -/
def inProgressOf (fill : Option Nat) (n : Nat) : Nat := if fill = some n then 1 else 0

/-- An own CLOSE CALL leaves the queue or is dropped (R151). -/
def Books.callLeaves (b : Books) (fill : Option Nat) (n round : Nat) : Books :=
  match b.invoice? n with
  | none => b
  | some r =>
    if round = 1 && r.state.isOpen then
      (b.enterClosing fill n .closer).putRound
        { invoice := n, number := 1, phase := .window (later b.time 150), extensions := 0,
          answers := [(b.enterClosing fill n .closer).ownAnswer n (inProgressOf fill n)] }
    else if round = 2 && r.state = .closing then
      b.modifyRound n (fun d =>
        if d.phase = .callQueued then { d with phase := .window (later b.time 150) } else d)
    else b

/-- A CENSUS leaves the queue or is dropped: the window opens, 100 ms long, with an empty tally set (R37). -/
def Books.censusLeaves (b : Books) (n : Nat) : Books :=
  b.modifyInvoice n (fun r =>
    if r.phase = .queued then { r with phase := .window (later b.time 100), tallies := [] } else r)

end Sys2Proof.Machine
end

