-- ==== Sys2Proof/Machine/Queue.lean ====
section
/-! DEFINITION. The Transmit Queue: joining and dropping (R23, R24), the contending frame (R25), attempts (R26, R27),
own frames applied (R28), claims rewritten (R29), and the repeat memory (R32, R33). -/

namespace Sys2Proof.Machine

/-! ### Own frames applied to this station's tables (R28) -/

/-- An own frame leaves the queue as delivered, disputed or unheard (R28), or is dropped (R24; a CLAIM is then not
applied). -/
def Books.applyOwn (b : Books) (fill : Option Nat) (f : Frame) : Books :=
  match f with
  | .claim n _ first count => b.applyOwnClaim fill n first count
  | .chest _ r => b.drawAll r.draws
  | .bin _ number action batch quantity => b.binAction number action batch quantity
  | .census n _ => b.censusLeaves n
  | .closeCall n round _ _ => b.callLeaves fill n round
  | .closed .. | .tally .. | .void .. | .sample .. | .mark .. => b

/-! ### Joining (R23, R24) -/

/-- There is room for a frame: 8 entries in all, at most 7 of them not TALLY (R23). -/
def Books.hasRoom (b : Books) (f : Frame) : Bool :=
  b.tx.length < 8 && (f.isTally || (b.tx.filter (fun e => !e.frame.isTally)).length < 7)

/-- What a dropped frame does: applied as one that leaves unheard, but for a CLAIM (R24). -/
def Books.dropFrame (b : Books) (fill : Option Nat) (f : Frame) : Books :=
  let b' := b.raiseFault .txQueueFull
  match f with
  | .claim .. => b'
  | .closeCall .. | .closed .. | .tally .. | .void .. | .chest .. | .sample .. | .mark .. | .bin .. | .census .. =>
    b'.applyOwn fill f

/-- A block asks for a frame to be queued: it joins as the newest entry, or is dropped (R23, R24). -/
def Books.queueFrame (b : Books) (fill : Option Nat) (f : Frame) : Books :=
  if b.hasRoom f then
    { b with tx := b.tx ++ [{ frame := f, attempts := 0, underWay := false, removal := .none }] }
  else b.dropFrame fill f

/-! ### The contending frame and attempts (R25 to R27) -/

/-- An entry is held while it is a CLAIM whose invoice is in CENSUS or STALE (R25). -/
def Books.holds (b : Books) (e : TxEntry) : Bool :=
  e.frame.kind = 4
    && (b.invoice? e.frame.invoice).any (fun r => r.state = .census || r.state = .stale)

/-- The contending frame: the oldest entry not held (R25). -/
def Books.contending (b : Books) : Option TxEntry := b.tx.find? (fun e => !b.holds e)

/-- The entry whose attempt is under way. -/
def Books.sending (b : Books) : Option TxEntry := b.tx.find? (fun e => e.underWay)

/-- The first entry of a list with `p`, changed by `f`. -/
def mapFirst {α : Type} (p : α → Bool) (f : α → α) : List α → List α
  | [] => []
  | x :: l => if p x then f x :: l else x :: mapFirst p f l

/-- The attempt of the contending frame begins (R26). -/
def Books.beginAttempt (b : Books) : Books :=
  { b with tx := mapFirst (fun e => !b.holds e) (fun e => { e with underWay := true }) b.tx }

/-- The entry under way leaves the queue. -/
def Books.dropSending (b : Books) : Books := { b with tx := b.tx.filter (fun e => !e.underWay) }

/-- The entry under way leaves by the removal that fell due during its attempt (R30): a CLAIM that has completed an
attempt is applied, unless its record is gone by ABANDON INVOICE (R48). -/
def Books.leaveRemoved (b : Books) (fill : Option Nat) (e : TxEntry) : Books :=
  if e.removal = .discard then b.dropSending else b.dropSending.applyRemoved fill e

/-- The transmission under way ends by lost arbitration: it is no attempt; the entry waits, or leaves if its removal
has fallen due (R26, R30). -/
def Books.attemptLost (b : Books) (fill : Option Nat) : Books :=
  match b.sending with
  | none => b
  | some e =>
    if e.removal = .none then
      { b with tx := b.tx.map (fun e => if e.underWay then { e with underWay := false } else e) }
    else b.leaveRemoved fill e

/-- The first attempt of an own CLAIM is completed (R56); with its record gone by ABANDON INVOICE nothing of it reaches a
record opened again under the number (R50; log 23). -/
def Books.noteFirstAttempt (b : Books) (e : TxEntry) : Books :=
  match e.frame with
  | .claim n _ first count =>
    if e.attempts = 0 && e.removal ≠ .discard then b.claimSent n first count else b
  | .closeCall .. | .closed .. | .tally .. | .void .. | .chest .. | .sample .. | .mark .. | .bin .. | .census .. => b

/-- The invoice that FRAME_UNHEARD carries: absent for BIN (R27). -/
def Frame.noticeInvoice (f : Frame) : Option Nat := if f.kind = 9 then none else some f.invoice

/-- How a counted attempt is judged (R27). -/
inductive Judged where
  | delivered | again | disputed | unheard
  deriving DecidableEq, Repr

/-- The table of R27, from the slots and the new attempt count. -/
def judgeAttempt (ack nak : Bool) (attempts : Nat) : Judged :=
  if nak then (if attempts < 4 then .again else .disputed)
  else if ack then .delivered
  else if attempts < 4 then .again else .unheard

/-- A counted attempt ends (R26, R27): the count goes up; a CLAIM's first attempt is noted (R56); the entry leaves by
a removal that fell due (R30), or is judged, and when it leaves it is applied (R28).  That FRAME_UNHEARD joins the notice
queue before what applying the frame raises is the model's choice (log 40). -/
def Books.attemptEnds (b : Books) (fill : Option Nat) (ack nak : Bool) : Books :=
  match b.sending with
  | none => b
  | some e =>
    let e' := { e with attempts := e.attempts + 1 }
    let b₁ := b.noteFirstAttempt e
    if e.removal ≠ .none then b₁.leaveRemoved fill e'
    else
      match judgeAttempt ack nak e'.attempts with
      | .again =>
        { b₁ with tx := b₁.tx.map (fun x =>
            if x.underWay then { x with underWay := false, attempts := e'.attempts } else x) }
      | .delivered => b₁.dropSending.applyOwn fill e.frame
      | .disputed => (b₁.dropSending.raiseFault .lineDispute).applyOwn fill e.frame
      | .unheard =>
        (b₁.dropSending.raiseNotice .frameUnheard e.frame.noticeInvoice e.frame.serial? (some e.frame.kind)).applyOwn
          fill e.frame

/-- On entry to HALT every CLAIM entry is removed, and those with an attempt are applied (R31). -/
def Books.removeClaims (b : Books) (fill : Option Nat) : Books :=
  b.removeEntries fill .apply (fun e => e.frame.kind = 4)

/-! ### Claims: the check, the rewrite (R29, R55) -/

/-- A never-sent CLAIM of the invoice (R29). -/
def TxEntry.neverSent (n : Nat) (e : TxEntry) : Bool := e.isClaimOf n && e.attempts = 0 && e.removal = .none

/-- The count of a claim made now: the smaller of the block size and the ceiling minus the high mark (R29, R55). -/
def Books.claimCount (b : Books) (r : Invoice) : Nat := min b.blockSize (r.ceiling - r.high)

/-- A never-sent CLAIM is resized from the high mark and ceiling, or removed with SERIALS_EXHAUSTED (R29). -/
def Books.rewriteClaim (b : Books) (n : Nat) : Books :=
  match b.invoice? n with
  | none => b
  | some r =>
    if b.tx.any (TxEntry.neverSent n) then
      if r.ceiling ≤ r.high then
        (b.removeEntries none .apply (TxEntry.neverSent n)).raiseNotice .serialsExhausted (some n) none none
      else
        { b with tx := b.tx.map (fun e =>
            if e.neverSent n then { e with frame := .claim n r.planned (r.high + 1) (b.claimCount r) } else e) }
    else b

/-- The high mark is raised to at least `v`; a change rewrites a never-sent CLAIM (R29). -/
def Books.raiseHigh (b : Books) (n v : Nat) : Books :=
  match b.invoice? n with
  | none => b
  | some r => if r.high < v then (b.modifyInvoice n (fun r => { r with high := v })).rewriteClaim n else b

/-- The claim check (R55). -/
def Books.claimCheck (b : Books) (n : Nat) : Books :=
  match b.invoice? n with
  | none => b
  | some r =>
    if r.free ≠ [] || b.tx.any (TxEntry.isClaimOf n) || b.station ≠ .online || r.state ≠ .active then b
    else if r.high < r.ceiling then b.queueFrame none (.claim n r.planned (r.high + 1) (b.claimCount r))
    else b.raiseNotice .serialsExhausted (some n) none none

/-- The second moment of the claim check: the free list, not empty before, has become empty while a fill for the
invoice is in progress (R55). -/
def Books.claimCheckIfEmptied (b : Books) (fill : Option Nat) (n : Nat) (before : List Nat) : Books :=
  if before ≠ [] && b.freeOf n = [] && fill = some n then b.claimCheck n else b

/-! ### The repeat memory (R32, R33) -/

/-- The memory entry of a sender. -/
def Books.repeat? (b : Books) (sender : Nat) : Option Repeat := b.repeats[sender - 1]?.getD none

/-- The memory entry of a sender set; the entry for this station's own number stays absent (R32). -/
def Books.setRepeat (b : Books) (sender : Nat) (r : Option Repeat) : Books :=
  if sender = 0 || sender = b.straps.station then b
  else { b with repeats := b.repeats.setIfInBounds (sender - 1) r }

end Sys2Proof.Machine
end

