-- ==== Sys2Proof/Machine/Invoices.lean ====
section
/-! DEFINITION. The Invoice Table's work: the census and its window (R37 to R40), stale requests (R41), participants
(R44), plan mismatch and the ceiling (R45, R61). -/

namespace Sys2Proof.Machine

/-- The Invoice Table queues a CENSUS for a record: phase QUEUED, then the frame joins or is dropped, when the window
starts at the drop (R24, R37). -/
def Books.startCensus (b : Books) (n : Nat) : Books :=
  match b.invoice? n with
  | none => b
  | some r => (b.modifyInvoice n (fun r => { r with phase := .queued })).queueFrame none (.census n r.planned)

/-- A stale request acts on one record by its state and census phase (R41). -/
def Books.staleRecord (b : Books) (n : Nat) : Books :=
  match b.invoice? n with
  | none => b
  | some r =>
    match r.state, r.phase with
    | .active, .none => (b.modifyInvoice n (fun r => { r with state := .stale })).startCensus n
    | .census, .queued | .stale, .queued => b.modifyInvoice n (fun r => { r with state := .stale })
    | .census, .window _ | .stale, .window _ =>
      b.modifyInvoice n (fun r => { r with state := .stale, recount := true })
    | .active, .queued | .active, .window _ | .census, .none | .stale, .none | .closing, _ | .closed, _ => b

/-- A stale request reaches every record at once, taken in ascending invoice number (R41; log 10). -/
def Books.staleRequest (b : Books) : Books := (b.invoices.map (·.number)).foldl Books.staleRecord b

/-- A station joins the participant set of a record (R44). -/
def Books.joinParticipants (b : Books) (n station : Nat) : Books :=
  b.modifyInvoice n (fun r => { r with participants := insertAsc station r.participants })

/-- The ceiling falls to `c` (R45): free serials above it are surrendered (R61), a never-sent CLAIM is rewritten
(R29), FULL is evaluated (R47), and the claim check runs if the list has become empty (R55). -/
def Books.lowerCeiling (b : Books) (fill : Option Nat) (n c : Nat) : Books :=
  let b₁ := b.modifyInvoice n (fun r => { r with ceiling := c, free := r.free.filter (fun x => x ≤ c) })
  ((b₁.rewriteClaim n).evalFull n).claimCheckIfEmptied fill n (b.freeOf n)

/-- A heard planned count is compared with this station's, in an open state (R45). -/
def Books.comparePlan (b : Books) (fill : Option Nat) (n heard : Nat) : Books :=
  match b.invoice? n with
  | none => b
  | some r =>
    if r.state.isOpen && heard ≠ r.planned then
      let b' := b.raiseFault .planMismatch
      if heard < r.ceiling then b'.lowerCeiling fill n heard else b'
    else b

/-- The fields of a TALLY made now for an invoice (R38, R153).  `answerTo` is 1 for a census and 2 for a close, which
carries the close surrender count as its own free count. -/
def Books.tallyNow (b : Books) (n answerTo inProgress : Nat) (r : Invoice) : Tally :=
  { answerTo := answerTo, planned := r.planned, high := r.high, packed := b.ownPackedCount n,
    free := if answerTo = 2 then b.closeFree n else r.free.length, inProgress := inProgress, net := b.ownNet n }

/-- A TALLY is queued for an invoice in the table (R38, R153). -/
def Books.queueTally (b : Books) (n answerTo inProgress : Nat) : Books :=
  match b.invoice? n with
  | none => b
  | some r => b.queueFrame none (.tally n (b.tallyNow n answerTo inProgress r))

/-- A census TALLY taken during the window joins the tally set (R39). -/
def Books.noteTally (b : Books) (n station packed : Nat) : Books :=
  b.modifyInvoice n (fun r =>
    match r.phase with
    | .window _ => { r with tallies := putBy (fun t => t.station) ⟨station, packed⟩ r.tallies }
    | .none | .queued => r)

/-- The view that the count of R40 gives: WHOLE when the packed counts of the tally set and this station's own sum to
the packed count. -/
def Books.viewNow (b : Books) (n : Nat) (r : Invoice) : View :=
  if b.ownPackedCount n + (r.tallies.map (·.packed)).sum = b.packedCount n then .whole else .short

/-- The census window of a record ends (R40). -/
def Books.endCensusWindow (b : Books) (n : Nat) : Books :=
  match b.invoice? n with
  | none => b
  | some r =>
    if r.recount then (b.modifyInvoice n (fun r => { r.endCensus with state := .stale })).startCensus n
    else
      (b.modifyInvoice n (fun r => { r.endCensus with state := .active, view := b.viewNow n r })).raiseNotice
        .viewCurrent (some n) none (some (b.viewNow n r).num)

end Sys2Proof.Machine
end

