-- ==== Sys2Proof/Machine/Close.lean ====
section
/-! DEFINITION. The Close Unit: answers (R155), windows and extensions (R156, R157), completion and the lot sheet
(R158 to R160), and the end of a fill as the Invoice Table is told of it (R154). -/

namespace Sys2Proof.Machine

/-! ### The lot sheet (R159, R160) -/

/-- A record is counted as unmarked: PENDING or DEFECT (R147, R159). -/
def MarkStatus.unmarked : MarkStatus → Bool
  | .pending | .defect => true
  | .good | .none => false

/-- The serials 1 to planned with no record here (R159). -/
def Books.missing (b : Books) (n planned : Nat) : List Nat :=
  (List.range' 1 planned).filter (fun x => (b.chest? n x).isNone)

/-- The lot status (R159). -/
def Books.lotStatus (b : Books) (n planned : Nat) : LotStatus :=
  if (b.packed n).any (fun c => c.serial?.any (fun x => decide (planned < x))) then .mismatched
  else if b.missing n planned = [] then .complete else .short

/-- The line of a record (R160). -/
def Chest.lotLine (c : Chest) : LotLine :=
  { serial := c.serial?.getD 0, station := c.station, gross := c.gross, tare := c.tare, net := c.net,
    sample := c.sample, offBlend := c.offBlend, unmarked := c.mark.unmarked, conflict := c.conflict }

/-- A participant has no entry in the answer table (R156). -/
def Round.unanswered (d : Round) (station : Nat) : Bool := !d.answers.any (fun a => a.station = station)

/-- The lot sheet compiled from the chest store and the answer table (R159, R160). -/
def Books.compileSheet (b : Books) (r : Invoice) (d : Round) : LotSheet :=
  let cs := b.packed r.number
  { invoice := r.number, mark := r.mark, grade := r.grade, planned := r.planned, packed := cs.length,
    status := b.lotStatus r.number r.planned,
    gross := (cs.map (·.gross)).sum, tare := (cs.map (·.tare)).sum, net := (cs.map (·.net)).sum,
    samples := (cs.map (fun c => c.sample.getD 0)).sum,
    offBlend := (cs.filter (fun c => c.offBlend)).length,
    unmarked := (cs.filter (fun c => c.mark.unmarked)).length,
    conflicts := (cs.filter (fun c => c.conflict.isSome)).length,
    missing := b.missing r.number r.planned,
    unconfirmed := r.participants.filter d.unanswered,
    inProgress := (d.answers.filter (fun a => a.inProgress = 1 && a.station ≠ b.straps.station)).map (·.station),
    closerInProgress := d.answers.any (fun a => a.inProgress = 1 && a.station = b.straps.station),
    reportedPacked := (d.answers.map (·.packed)).sum,
    reportedNet := (d.answers.map (·.net)).sum,
    reportedSurrendered := (d.answers.map (·.free)).sum,
    lines := cs.map Chest.lotLine }

/-- The lot sheet held for an invoice. -/
def Books.sheet? (b : Books) (n : Nat) : Option LotSheet := b.sheets.find? (fun l => l.invoice = n)

/-! ### Completion (R158) -/

/-- A round completes: the sheet is compiled, a CLOSED frame is queued, the record enters CLOSED as CLOSER, CLOSE_DONE
is raised and the round ends (R158). -/
def Books.completeRound (b : Books) (n : Nat) : Books :=
  match b.invoice? n, b.round? n with
  | some r, some d =>
    let sheet := b.compileSheet r d
    let b₁ := { b with sheets := putBy (fun l => l.invoice) sheet b.sheets }
    let b₂ := b₁.queueFrame none (.closed n sheet.status.num sheet.packed sheet.missing.length sheet.net)
    ((b₂.enterClosed none n .closer).raiseNotice .closeDone (some n) none (some sheet.status.num)).dropRound n
  | _, _ => b

/-- Some entry of the answer table shows in-progress 1 (R156, R157). -/
def Round.anyInProgress (d : Round) : Bool := d.answers.any (fun a => a.inProgress = 1)

/-- Some participant is unanswered (R156). -/
def Books.anyUnanswered (b : Books) (n : Nat) (d : Round) : Bool :=
  (b.invoice? n).any (fun r => r.participants.any d.unanswered)

/-- R157's test for early completion, made in phase EXTENSION. -/
def Books.earlyCompletion (b : Books) (n : Nat) : Books :=
  match b.round? n with
  | none => b
  | some d =>
    match d.phase with
    | .extension _ => if !b.anyUnanswered n d && !d.anyInProgress then b.completeRound n else b
    | .window _ | .callQueued => b

/-- An answer to a close call is recorded (R155). -/
def Books.recordAnswer (b : Books) (n : Nat) (a : Answer) : Books :=
  (b.modifyRound n (fun d => d.record a)).earlyCompletion n

/-- The first answer window's outcome EXTENSION (R156), or a further extension (R157). -/
def Books.extendRound (b : Books) (n count : Nat) : Books :=
  b.modifyRound n (fun d => { d with phase := .extension (later b.time 2000), extensions := count })

/-- A close window ends (R156). -/
def Books.endCloseWindow (b : Books) (n : Nat) : Books :=
  match b.invoice? n, b.round? n with
  | some r, some d =>
    if b.anyUnanswered n d then
      if d.number = 1 then
        (b.modifyRound n (fun d => { d with number := 2, phase := .callQueued })).queueFrame none
          (.closeCall n 2 (b.packedCount n) r.planned)
      else b.completeRound n
    else if d.anyInProgress then b.extendRound n 1
    else b.completeRound n
  | _, _ => b

/-- An extension ends (R157). -/
def Books.endExtension (b : Books) (n : Nat) : Books :=
  match b.round? n with
  | none => b
  | some d =>
    if d.anyInProgress && d.extensions < 3 then b.extendRound n (d.extensions + 1) else b.completeRound n

/-! ### The end of a fill (R154) -/

/-- The Invoice Table is told that the fill for an invoice has ended (R154): a peer in CLOSING queues a fresh close
TALLY, a closer's own entry is counted afresh; in any other state nothing. -/
def Books.fillEnded (b : Books) (n : Nat) : Books :=
  match b.invoice? n with
  | none => b
  | some r =>
    if r.state = .closing then
      match r.role with
      | some .peer => b.queueTally n 2 0
      | some .closer => b.recordAnswer n (b.ownAnswer n 0)
      | none => b
    else b

/-- A fill has ended without a serial: the Serial Allocator and then the Invoice Table are told (R117, steps 4, 5). -/
def Books.fillLost (b : Books) (n : Nat) : Books := (b.surrenderKept n).fillEnded n

/-- The chest `f` has ended without a serial: a record freed in the meantime is told of nothing (R154), nor is one opened
again under its number (R50). -/
def Books.chestLost (b : Books) (f : Fill) : Books :=
  match f.held with
  | some n => b.fillLost n
  | none => b

/-- The record that the chest `f` was started for, while it stands (R115). -/
def Books.recordOf? (b : Books) (f : Fill) : Option Invoice := f.held.bind b.invoice?

end Sys2Proof.Machine
end

