-- ==== Sys2Proof/Machine/Chests.lean ====
section
/-! DEFINITION. The Chest Store: the reservation (R139), own records (R140), heard chests (R141, R142), voids, samples
and marks (R143 to R147). -/

namespace Sys2Proof.Machine

/-! ### The reservation (R139) -/

/-- A reservation number is held by a present ORPHAN record. -/
def Books.orphanHolds (b : Books) (k : Nat) : Bool := b.chests.any (fun c => c.orphan? = some k)

/-- The counter's next value, wrapping from 255 to 1 (R139). -/
def nextReservation (k : Nat) : Nat := if 255 ≤ k then 1 else k + 1

/-- The reservation number given next: the counter moved on past numbers held by ORPHAN records, within `fuel`
moves; absent when every number is held. -/
def Books.reservationFrom (b : Books) : Nat → Nat → Option Nat
  | 0, _ => none
  | fuel + 1, k =>
    if b.orphanHolds (nextReservation k) then b.reservationFrom fuel (nextReservation k) else some (nextReservation k)

/-- The number a reservation made now would take; absent when no slot or no number is free (R139). -/
def Books.reservable (b : Books) : Option Nat :=
  if 1 ≤ b.freeSlots then b.reservationFrom 255 b.reservationCounter else none

/-- A slot is set aside under its reservation number (R139). -/
def Books.reserve (b : Books) (k : Nat) : Books := { b with reservation := some k, reservationCounter := k }

/-! ### Own records (R113, R115, R140) -/

/-- The reserved slot takes a PACKED record; a HEARD record under its key leaves, and its packing station is the own
record's conflict (R140).  The FULL flag is evaluated (R47). -/
def Books.fillReserved (b : Books) (c : Chest) (serial : Nat) : Books :=
  let conflict := (b.chest? c.invoice serial).map (·.station)
  let b' := ({ b with reservation := none } : Books).putChest { c with key := .packed serial, conflict := conflict }
  b'.noteSlots.evalFull c.invoice

/-- The reserved slot takes an ORPHAN record under its reservation number (R115, R140). -/
def Books.fillOrphan (b : Books) (c : Chest) : Books :=
  (({ b with reservation := none } : Books).putChest c).noteSlots

/-! ### Heard chests (R60, R141, R142) -/

/-- A serial heard in use (R60): it leaves the free list, joins the yielded set, and is covered by the high mark; the
claim check runs if the list has become empty. -/
def Books.heardSerial (b : Books) (fill : Option Nat) (n serial : Nat) : Books :=
  let b₁ := b.modifyInvoice n (fun r => ({ r with free := r.free.filter (fun x => x ≠ serial) } : Invoice).yield serial)
  (b₁.raiseHigh n serial).claimCheckIfEmptied fill n (b.freeOf n)

/-- A new heard record finds a slot (R142). -/
def Books.roomForHeard (b : Books) : Bool :=
  if b.reservation.isSome then 1 ≤ b.freeSlots else 2 ≤ b.freeSlots

/-- The HEARD PACKED record of a CHEST frame (R141). -/
def heardRecord (sender n : Nat) (r : ChestReport) : Chest :=
  { invoice := n, key := .packed r.serial, station := sender, origin := .heard, gross := r.gross, tare := r.tare,
    net := r.net, sample := none, offBlend := r.flags % 2 = 1, mark := .pending, draws := r.draws, conflict := none }

/-- A record holds the frame's weights, flags and draws. -/
def Chest.sameContent (c d : Chest) : Bool :=
  c.gross = d.gross && c.tare = d.tare && c.net = d.net && c.offBlend = d.offBlend && c.draws = d.draws

/-- A heard record is made, or the view goes PARTIAL with STORE_FULL (R142, R46). -/
def Books.makeHeard (b : Books) (c : Chest) : Books :=
  if b.roomForHeard then (b.putChest c).evalFull c.invoice
  else (b.modifyInvoice c.invoice (fun r => { r with view := .short })).raiseFault .storeFull

/-- The record of a heard CHEST with a serial, by the record under its key (the table of R141). -/
def Books.storeHeard (b : Books) (sender n : Nat) (r : ChestReport) (isRepeat : Bool) : Books :=
  let c := heardRecord sender n r
  match b.chest? n r.serial with
  | none => b.makeHeard c
  | some old =>
    if old.origin = .heard && old.station = sender then
      if old.sameContent c then b else b.putChest c
    else
      let b' := b.putChest { old with conflict := some sender }
      if isRepeat then b' else b'.raiseNotice .serialConflict (some n) (some r.serial) (some sender)

/-- A CHEST frame is handed to the Chest Store (R141): the sender joins the participants, a record is made, replaced
or marked in conflict unless the invoice is CLOSED, and the Serial Allocator checks the serial (R60). -/
def Books.heardChest (b : Books) (fill : Option Nat) (sender n : Nat) (r : ChestReport) (isRepeat : Bool) : Books :=
  match b.invoice? n with
  | none => b
  | some rec =>
    let b₁ := b.joinParticipants n sender
    if r.serial = 0 then b₁
    else
      let b₂ := if rec.state = .closed then b₁ else b₁.storeHeard sender n r isRepeat
      b₂.heardSerial fill n r.serial

/-! ### Voids, samples and marks heard (R144, R146, R147) -/

/-- Some record of an invoice in a state other than CLOSED. -/
def Books.notClosed (b : Books) (n : Nat) : Bool := (b.invoice? n).any (fun r => r.state ≠ .closed)

/-- A heard VOID (R144). -/
def Books.heardVoid (b : Books) (sender n serial : Nat) : Books :=
  match b.chest? n serial with
  | none => b
  | some c =>
    if b.notClosed n then
      if c.origin = .heard && c.station = sender then
        (b.dropChests (fun x => x.invoice = n && x.key = .packed serial)).evalFull n
      else if c.conflict = some sender then b.putChest { c with conflict := none }
      else b
    else b

/-- A heard SAMPLE (R146). -/
def Books.heardSample (b : Books) (n serial weight : Nat) : Books :=
  match b.chest? n serial with
  | none => b
  | some c => if b.notClosed n && c.sample = none && weight ≤ c.net then b.putChest { c with sample := some weight } else b

/-- A heard MARK (R147), in every invoice state. -/
def Books.heardMark (b : Books) (sender n serial status : Nat) : Books :=
  match b.chest? n serial with
  | none => b
  | some c =>
    if c.origin = .heard && c.station = sender then b.putChest { c with mark := .ofNum status } else b

end Sys2Proof.Machine
end

