-- ==== Sys2Proof/Machine/Marks.lean ====
section
/-! DEFINITION. The mark: the text of its lines (R127), the glyphs, columns and used rows (R128), the levels sent down
the head chain (R126), and the start of a mark (R129). -/

namespace Sys2Proof.Machine

/-! ### The lines (R127) -/

/-- The character of a digit. -/
def digitChar (d : Nat) : Byte := BitVec.ofNat 8 (0x30 + d % 10)

/-- The digits of `v` without leading zeros, 0 being one digit; `fuel` bounds the digits above the last. -/
def decimal : Nat → Nat → List Byte
  | 0, v => [digitChar v]
  | fuel + 1, v => if v < 10 then [digitChar v] else decimal fuel (v / 10) ++ [digitChar v]

/-- A weight in document units, in kilograms with one decimal (R127). -/
def weightText (v : Nat) : List Byte := decimal 5 (v / 10) ++ [0x2E, digitChar v]

/-- Line 1: garden mark, space, grade, at most 20 characters (R127). -/
def line1Of (mark grade : List Byte) : List Byte := (mark ++ [0x20] ++ grade).take 20

/-- Line 2: invoice, serial, net and gross, cut to 20 characters (R127). -/
def line2Of (invoice serial net gross : Nat) : List Byte :=
  ([digitChar (invoice / 1000), digitChar (invoice / 100), digitChar (invoice / 10), digitChar invoice, 0x2D,
    digitChar (serial / 10), digitChar serial, 0x20, 0x4E] ++ weightText net ++ [0x20, 0x47] ++ weightText gross).take 20

/-! ### Glyphs and columns (R128) -/

/-- The dots of a glyph, one number for each dot row from the top (the table of R128). -/
def glyphRows (c : Byte) : List Nat :=
  match c.toNat with
  | 0x30 => [14, 17, 19, 21, 25, 17, 14]
  | 0x31 => [4, 12, 4, 4, 4, 4, 14]
  | 0x32 => [14, 17, 1, 2, 4, 8, 31]
  | 0x33 => [31, 2, 4, 2, 1, 17, 14]
  | 0x34 => [2, 6, 10, 18, 31, 2, 2]
  | 0x35 => [31, 16, 30, 1, 1, 17, 14]
  | 0x36 => [6, 8, 16, 30, 17, 17, 14]
  | 0x37 => [31, 1, 2, 4, 8, 8, 8]
  | 0x38 => [14, 17, 17, 14, 17, 17, 14]
  | 0x39 => [14, 17, 17, 15, 1, 2, 12]
  | 0x41 => [14, 17, 17, 17, 31, 17, 17]
  | 0x42 => [30, 17, 17, 30, 17, 17, 30]
  | 0x43 => [14, 17, 16, 16, 16, 17, 14]
  | 0x44 => [28, 18, 17, 17, 17, 18, 28]
  | 0x45 => [31, 16, 16, 30, 16, 16, 31]
  | 0x46 => [31, 16, 16, 30, 16, 16, 16]
  | 0x47 => [14, 17, 16, 23, 17, 17, 15]
  | 0x48 => [17, 17, 17, 31, 17, 17, 17]
  | 0x49 => [14, 4, 4, 4, 4, 4, 14]
  | 0x4A => [7, 2, 2, 2, 2, 18, 12]
  | 0x4B => [17, 18, 20, 24, 20, 18, 17]
  | 0x4C => [16, 16, 16, 16, 16, 16, 31]
  | 0x4D => [17, 27, 21, 21, 17, 17, 17]
  | 0x4E => [17, 17, 25, 21, 19, 17, 17]
  | 0x4F => [14, 17, 17, 17, 17, 17, 14]
  | 0x50 => [30, 17, 17, 30, 16, 16, 16]
  | 0x51 => [14, 17, 17, 17, 21, 18, 13]
  | 0x52 => [30, 17, 17, 30, 20, 18, 17]
  | 0x53 => [15, 16, 16, 14, 1, 1, 30]
  | 0x54 => [31, 4, 4, 4, 4, 4, 4]
  | 0x55 => [17, 17, 17, 17, 17, 17, 14]
  | 0x56 => [17, 17, 17, 17, 17, 10, 4]
  | 0x57 => [17, 17, 17, 21, 21, 21, 10]
  | 0x58 => [17, 17, 10, 4, 10, 17, 17]
  | 0x59 => [17, 17, 17, 10, 4, 4, 4]
  | 0x5A => [31, 1, 2, 4, 8, 16, 31]
  | 0x2D => [0, 0, 0, 31, 0, 0, 0]
  | 0x2E => [0, 0, 0, 0, 0, 12, 12]
  | 0x2F => [1, 1, 2, 4, 8, 16, 16]
  | _ => [0, 0, 0, 0, 0, 0, 0]

/-- The number of a glyph's row `d`, from 1. -/
def glyphRow (c : Byte) (d : Nat) : Nat := (glyphRows c)[d - 1]?.getD 0

/-- A line has a dot at mark column `col`, on the line's own nozzle row `row`, 1 to 14 (R128). -/
def lineDot (line : List Byte) (col row : Nat) : Bool :=
  match line.drop ((col - 1) / 12) with
  | [] => false
  | c :: _ => (col - 1) % 12 < 10 && (glyphRow c ((row + 1) / 2)).testBit (4 - (col - 1) % 12 / 2)

/-- The mark has a dot at a column on nozzle row `n`: line 1 on rows 1 to 14, line 2 on rows 19 to 32 (R128). -/
def markDot (line1 line2 : List Byte) (col n : Nat) : Bool :=
  if n ≤ 14 then lineDot line1 col n else if 19 ≤ n then lineDot line2 col (n - 18) else false

/-- Some glyph of the line has a dot on the line's nozzle row `row` (R128). -/
def lineUses (line : List Byte) (row : Nat) : Bool := line.any (fun c => glyphRow c ((row + 1) / 2) ≠ 0)

/-- Some glyph of the mark has a dot on nozzle row `n` (R128). -/
def markUses (line1 line2 : List Byte) (n : Nat) : Bool :=
  if n ≤ 14 then lineUses line1 n else if 19 ≤ n then lineUses line2 (n - 18) else false

/-- The set of nozzles 1 to 32 for which `p` holds: nozzle `n` is bit `n - 1`. -/
def nozzleSet (p : Nat → Bool) : BitVec 32 :=
  BitVec.ofNat 32 ((List.range 32).foldl (fun a i => if p (i + 1) then a + 2 ^ i else a) 0)

/-- The nozzles that fire in a column of the mark; beyond the mark length none (R128, R131). -/
def columnOf (j : Job) (position : Nat) : BitVec 32 :=
  if position ≤ j.markLength then nozzleSet (markDot j.line1 j.line2 position) else 0

/-! ### The head chain (R126) -/

/-- The levels of the 32 stages for a set of firing nozzles, by the fire polarity (R126). -/
def Head.levels (h : Head) (fire : BitVec 32) : BitVec 32 := if h.activeLow then ~~~fire else fire

/-- The no-fire level on every stage: what a clear leaves in the latch (R126). -/
def Head.noFire (h : Head) : BitVec 32 := h.levels 0

/-- The nozzle whose bit is the `i`-th sent and read in a SHIFT, `i` from 1 (R126). -/
def Head.nozzleAt (h : Head) (i : Nat) : Nat := if h.nozzle32First then 33 - i else i

/-- The bits sent on DATA-OUT in a SHIFT of a set of firing nozzles, in order (R126). -/
def Head.sends (h : Head) (fire : BitVec 32) : List Bool :=
  (List.range 32).map (fun i => (h.levels fire).getLsbD (h.nozzleAt (i + 1) - 1))

/-- The levels that the stages hold once the bits `sent` have been shifted in, in order (R126). -/
def Head.stored (h : Head) (sent : List Bool) : BitVec 32 := nozzleSet (fun n => sent[h.nozzleAt n - 1]?.getD false)

/-- The nozzles read ready on DATA-IN: bit `i` of `dataIn` is the `i + 1`-th bit read (R126). -/
def Head.readyOf (h : Head) (dataIn : BitVec 32) : BitVec 32 :=
  nozzleSet (fun n => dataIn.getLsbD (h.nozzleAt n - 1))

/-- The latch cleared to no-fire, and the firing pulse stopped (R126, R131). -/
def Marker.clearLatch (m : Marker) : Marker :=
  match m.head with
  | none => { m with firing := none }
  | some h => { m with firing := none, latch := h.noFire }

/-- The shift path takes a value that the manual does not give (log 38). -/
def Marker.freePath (m : Marker) : Marker :=
  { m with path := Config.headBits m.unknown, unknown := m.unknown + 1 }

/-- A SHIFT that is cut short leaves the path at a free value; with no SHIFT in progress nothing changes (log 42). -/
def Marker.cutShift (m : Marker) : Marker := if m.chain = .shift then m.freePath else m

/-- The SHIFT of a job's current position starts: its bits go out on DATA-OUT (R126, R129, R131, R132). -/
def Marker.startShift (m : Marker) (j : Job) : Marker :=
  { m with chain := .shift, job := some j,
           sends := (m.head.map (fun h => h.sends (columnOf j j.position))).getD [] }

/-! ### The start of a mark (R129) -/

/-- The mark job of a record whose lines are given (R125, R128). -/
def newJob (requester : MarkFor) (invoice serial : Nat) (line1 line2 : List Byte) : Job :=
  { invoice := invoice, serial := serial, requester := requester, line1 := line1, line2 := line2,
    markLength := 12 * max line1.length line2.length - 2,
    positions := 12 * max line1.length line2.length - 2 + 12,
    position := 1, late := 0, usedRows := nozzleSet (markUses line1 line2), ready := none, defect := false }

/-- A mark starts: the job is made from the invoice and chest records, the capture is complete at once, with the ready
bits in the path until DATA-IN has brought them (log 38), and the SHIFT of position 1 starts (R126, R129). -/
def State.startMark (s : State) (requester : MarkFor) (n serial : Nat) : State :=
  match s.books.invoice? n, s.books.chest? n serial with
  | some r, some c =>
    s.setMarker (s.marker.freePath.startShift
      (newJob requester n serial (line1Of r.mark r.grade) (line2Of n serial c.net c.gross)))
  | _, _ => s

/-! ### The chain lines (R125, R126, R137) -/

/-- CLK and MODE (R125, R126, R137): at rest but while an operation of the head runs.  That they rest between operations
is the model's choice, the data sheet giving their timing (log 39). -/
def State.chainOut (s : State) : ChainLevel :=
  match s.marker.chain with
  | .headIdle | .wait => .rest
  | .capture => .operation .capture
  | .shift => .operation .shift

/-- The levels of DATA-OUT in order (R125, R126): the bits of the SHIFT in progress, else 0 (log 39). -/
def State.dataOut (s : State) : List Bool := if s.marker.chain = .shift then s.marker.sends else [false]

end Sys2Proof.Machine
end

