-- ==== Sys2Proof/Machine/Fill.lean ====
section
/-! DEFINITION. The Fill Sequencer: settle requests, tare, feeding, settling, adaptation, check, top-up, acceptance,
rejection, clearing, and the ways a fill is cut short (07). -/

namespace Sys2Proof.Machine

/-! ### Small changes of the sequencer -/

/-- The tables changed by `f`. -/
def State.onBooks (s : State) (f : Books → Books) : State := s.setBooks (f s.books)

/-- The chest in progress changed by `f`. -/
def State.modifyFill (s : State) (f : Fill → Fill) : State :=
  s.setFiller { s.filler with fill := s.filler.fill.map f }

/-- Component `k`, from 1, changed by `f`. -/
def Fill.modifyComp (f : Fill) (k : Nat) (g : CompState → CompState) : Fill :=
  { f with comps := f.comps.modify (k - 1) g }

/-- Component `k`, from 1. -/
def Fill.comp? (f : Fill) (k : Nat) : Option CompState := if k = 0 then none else f.comps[k - 1]?

/-- The step entered with every gate closed and no flow watched (R101). -/
def State.toStep (s : State) (step : FillStep) : State :=
  s.setFiller { s.filler with step := step, gate := .closed, flow := none }

/-- The gate closed; the no-flow watch stands (R105, R106). -/
def State.closeGate (s : State) : State := s.setFiller { s.filler with gate := .closed }

/-- The sequencer rests: IDLE, with no chest in progress (R100). -/
def State.goIdle (s : State) : State :=
  s.setFiller { s.filler with step := .idle, fill := none, gate := .closed, flow := none, rejectTimer := 0 }

/-! ### Settle requests (R95) -/

/-- A settle request is placed; the settle timer starts from 0 (R95). -/
def State.placeRequest (s : State) (who : Requester) : State :=
  s.setWeigh { s.weigh with request := some ⟨who, s.books.time, false⟩, timer := 0 }

/-- The settle request is withdrawn; the timer stays at 0 (R95). -/
def State.withdrawRequest (s : State) : State := s.setWeigh { s.weigh with request := none, timer := 0 }

/-- The Fill Sequencer's own requests: for a fill, and for a zero capture. -/
def Requester.ofLane : Requester → Bool
  | .fill | .capture => true
  | .zeroScale => false

/-- The Fill Sequencer withdraws its request, if one is present (R95). -/
def State.withdrawLane (s : State) : State :=
  if s.weigh.request.any (fun q => q.who.ofLane) then s.withdrawRequest else s

/-- The Fill Sequencer asks for a settle, unless HOLD is active (R95, R121). -/
def State.askSettle (s : State) (who : Requester) : State := if s.pins.hold then s else s.placeRequest who

/-! ### Clearing the scale (R119) -/

/-- Entering CLEAR (R119): with CHEST low the outfeed is off and zero capture starts, but in HALT the sequencer goes
IDLE; with CHEST high the outfeed runs. -/
def State.enterClear (s : State) : State :=
  let t := s.toStep .clear
  if t.pins.chest then t
  else if t.books.station = .halt then t.goIdle
  else t.askSettle .capture

/-! ### Rejection (R116, R117) -/

/-- The reject report of a chest that has drawn (R117). -/
def State.queueReport (s : State) (f : Fill) : State :=
  if f.drawn then s.onBooks (·.queueFrame none (.chest f.invoice ⟨0, 0, 0, 0, 0, f.draws⟩)) else s

/-- Entering REJECT (R117): the notice, the report if the chest has drawn, the reservation freed, the Serial Allocator
and the Invoice Table told, and the pulse started. -/
def State.enterReject (s : State) (reason : RejectReason) : State :=
  let t := (s.withdrawLane.toStep .reject).modifyFill (fun f => { f with reason := some reason })
  match t.filler.fill with
  | none => t
  | some f =>
    let t₁ := t.onBooks (·.raiseNotice .chestRejected (some f.invoice) none (some reason.num))
    let t₂ := (t₁.queueReport f).onBooks (fun b => (b.dropReservation).chestLost f)
    t₂.setFiller { t₂.filler with rejectTimer := 0 }

/-! ### When a fill is cut short (R112) -/

/-- The settled net of the component before `k`, with n_0 = 0 (R108). -/
def Fill.netBeforeComp (f : Fill) (k : Nat) : Int := ((f.comp? (k - 1)).bind (·.settled)).getD 0

/-- The actuals settled from the last net, by the step at the cut (R112). -/
def Fill.cut (f : Fill) (step : FillStep) : Fill :=
  let net := f.lastNet.getD 0
  match step with
  | .feed k | .settle k => f.modifyComp k (fun c => { c with actual := net - f.netBeforeComp k })
  | .topup =>
    match f.topupComp with
    | some k => f.modifyComp k (fun c => { c with actual := c.actual + (net - f.netBefore.getD 0) })
    | none => f
  | .idle | .armed | .tare | .check | .accept | .reject | .mark | .clear => f

/-- The fill is cut: any open gate closes, the settle request is withdrawn, and the actuals are settled (R112). -/
def State.cutFill (s : State) : State :=
  (s.closeGate.withdrawLane).modifyFill (fun f => f.cut s.filler.step)

/-- The fill ends with nothing drawn: the reservation is freed, and the Serial Allocator and the Invoice Table are
told (R122). -/
def State.endUndrawn (s : State) : State :=
  match s.filler.fill with
  | none => s
  | some f => s.onBooks (fun b => b.dropReservation.chestLost f)

/-- A fill in ARMED to TOPUP ends as ABORT CHEST ends it (R122, R123). -/
def State.abortFill (s : State) (reason : RejectReason) : State :=
  let t := s.cutFill
  if t.filler.fill.any (fun f => f.drawn) then t.enterReject reason
  else if s.filler.step = .armed then (t.toStep .idle).endUndrawn.goIdle
  else (t.toStep .clear).endUndrawn.enterClear

/-! ### Acceptance (R113 to R115) -/

/-- The record of the chest in progress with its document weights, flags and draws (R113, R114). -/
def State.ownRecord (s : State) (f : Fill) (key : ChestKey) (mark : MarkStatus) : Chest :=
  let r := f.tare.getD 0
  let net := f.net.getD 0
  { invoice := f.invoice, key := key, station := s.books.straps.station, origin := .own,
    gross := docGross r net, tare := docTare r, net := docGross r net - docTare r, sample := none,
    offBlend := f.offBlend net, mark := mark, draws := f.draws, conflict := none }

/-- The body of the CHEST frame of an accepted chest (R113). -/
def Chest.report (c : Chest) (serial : Nat) : ChestReport :=
  { serial := serial, gross := c.gross, tare := c.tare, net := c.net, flags := if c.offBlend then 1 else 0,
    draws := c.draws }

/-- An orphan (R115): a record only when the one the chest was started for stands; CHEST_ORPHAN, ORPHAN_PACKED, a reject report of its
draws; then CLEAR. -/
def State.orphan (s : State) (f : Fill) : State :=
  let b := s.books
  let b₁ := if (b.recordOf? f).isSome then b.fillOrphan (s.ownRecord f (.orphan f.reservation) .none)
    else b.dropReservation
  let b₂ := (b₁.raiseFault .chestOrphan).raiseNotice .orphanPacked (some f.invoice) none (some f.reservation)
  (s.setBooks (b₂.queueFrame none (.chest f.invoice ⟨0, 0, 0, 0, 0, f.draws⟩))).enterClear

/-- An accepted chest (R113) with its serial: the serial leaves the free list as the reserved record takes it, the
CHEST frame is queued, CHEST_ACCEPTED is raised, and the Invoice Table is told that the fill has ended. -/
def State.acceptAs (s : State) (f : Fill) (serial : Nat) : State :=
  let c := s.ownRecord f (.packed serial) (if s.marker.head.isSome then .pending else .none)
  let b₁ := (s.books.modifyInvoice f.invoice (fun r => { r with free := r.free.erase serial })).fillReserved c serial
  let b₂ := b₁.queueFrame none (.chest f.invoice (c.report serial))
  let b₃ := b₂.raiseNotice .chestAccepted (some f.invoice) (some serial) (some c.net)
  (s.setBooks (b₃.fillEnded f.invoice)).modifyFill (fun f => { f with serial := some serial })

/-- After an acceptance (R113, R118, R137): with a head, MARK; with none, a MARK frame of status NONE is queued and
the sequencer goes CLEAR (log 14). -/
def State.afterAccept (s : State) (n serial : Nat) : State :=
  if s.marker.head.isSome then (s.toStep .mark).startMark .fill n serial
  else (s.onBooks (·.queueFrame none (.mark n serial 4))).enterClear

/-- ACCEPT, which acts at once (R113): an orphan when the invoice is CLOSED or gone; SURPLUS when no serial is free;
else the lowest free serial.  Gone is the record that the chest was started for: were it released during the fill and its
number opened again, the chest is an orphan all the same (R115, R139). -/
def State.accept (s : State) : State :=
  let t := s.toStep .accept
  match t.filler.fill with
  | none => t
  | some f =>
    match t.books.recordOf? f with
    | none => t.orphan f
    | some r =>
      if r.state = .closed then t.orphan f
      else
        match r.free with
        | [] => t.enterReject .surplus
        | serial :: _ => (t.acceptAs f serial).afterAccept f.invoice serial

/-! ### Gates and flow (R105 to R107) -/

/-- The net of the current reading, when the reading is valid and the tare is known. -/
def State.net? (s : State) : Option Int :=
  match s.weigh.reading, s.filler.fill.bind (·.tare) with
  | some r, some tare => some (r.weight - tare)
  | _, _ => none

/-- Whether a gate is open. -/
def Gate.isOpen : Gate → Bool
  | .closed => false
  | .coarse _ | .fine _ => true

/-- The no-flow watch with the gate open at net `net` (R106): it starts when the gate first opens, resumes when it
opens again, and while the gate stays open a rise of 5 starts it again. -/
def flowAt (wasOpen : Bool) (flow : Option FlowWatch) (net : Int) : FlowWatch :=
  match flow with
  | none => ⟨net, 0⟩
  | some w => if wasOpen && w.reference + 5 ≤ net then ⟨net, 0⟩ else w

/-- The gate of component `k` set coarse or fine at net `net`; the opened and fine marks follow (R105, R106). -/
def State.setGate (s : State) (k : Nat) (g : Gate) (isFine : Bool) (net : Int) : State :=
  (s.setFiller { s.filler with
      gate := g, flow := some (flowAt s.filler.gate.isOpen s.filler.flow net) }).modifyFill
    (fun f => f.modifyComp k (fun c => { c with opened := true, fine := c.fine || isFine }))

/-- Entering SETTLE(k): a settle request (R108). -/
def State.enterSettle (s : State) (k : Nat) : State := (s.toStep (.settle k)).askSettle .fill

/-- The gate of FEED(k) set from the net against the cutoffs; at the fine cutoff the feed ends (R105). -/
def State.feedGate (s : State) (k : Nat) : State :=
  match s.net?, s.filler.fill.bind (fun f => f.comp? k) with
  | some net, some c =>
    if c.fineCut.getD 0 ≤ net then s.enterSettle k
    else if net < c.coarseCut.getD 0 && !c.fine then s.setGate k (.coarse c.feeder) false net
    else s.setGate k (.fine c.feeder) true net
  | _, _ => s

/-- The in-flight value of a feeder 1 to 4 (R100). -/
def State.inflight (s : State) (feeder : Nat) : Nat := (s.filler.inflight[feeder - 1]?).getD 0

/-- Entering FEED(k): the cutoffs are computed and kept, and the gate is set (R105). -/
def State.enterFeed (s : State) (k : Nat) : State :=
  ((s.toStep (.feed k)).modifyFill (fun f => f.modifyComp k (fun c =>
    { c with
      coarseCut := some (max 0 ((c.cumulative : Int) - s.books.fineBand c.feeder)),
      fineCut := some (max 0 ((c.cumulative : Int) - s.inflight c.feeder)) }))).feedGate k

/-- The top-up feed ends: the gate closes and a settle is asked for (R111). -/
def State.endTopup (s : State) (how : TopupEnd) : State :=
  (((s.toStep .topup).modifyFill (fun f => { f with topupEnd := some how }))).askSettle .fill

/-- The gate of the top-up set fine below its cutoff, and closed once the net reaches it (R111).  A gate that has never
opened, the net standing at the cutoff from the start, counts as closed at its cutoff: the model's choice (log 15). -/
def State.topupGate (s : State) : State :=
  match s.net?, s.filler.fill with
  | some net, some f =>
    match f.topupComp.bind (fun k => (f.comp? k).map (fun c => (k, c))) with
    | some (k, c) =>
      if (f.target : Int) - s.inflight c.feeder ≤ net then s.endTopup .cutoff
      else s.setGate k (.fine c.feeder) true net
    | none => s
  | _, _ => s

/-- The component chosen for top-up, from 1: the largest share whose bin is not EMPTY, the lower index among equals
(R111).  `k` is the index of the head of the list, `best` the choice so far with its share. -/
def Books.chooseTopup (b : Books) : Nat → List Component → Option (Nat × Nat) → Option Nat
  | _, [], best => best.map (·.1)
  | k, c :: l, best =>
    if (b.bin c.bin).state = .empty then b.chooseTopup (k + 1) l best
    else
      match best with
      | none => b.chooseTopup (k + 1) l (some (k, c.share))
      | some (_, share) => b.chooseTopup (k + 1) l (if share < c.share then some (k, c.share) else best)

/-- Entering TOPUP (R111). -/
def State.enterTopup (s : State) (net : Int) : State :=
  let t := (s.toStep .topup).modifyFill (fun f =>
    { f with topupDone := true, netBefore := some net, topupComp := s.books.chooseTopup 1 f.recipe none, topupEnd := none })
  if t.filler.fill.any (fun f => f.topupComp.isSome) then t.topupGate else t.enterReject .underweight

/-- CHECK, which acts at once: the chest net against T and the tolerance (R110). -/
def State.check (s : State) (net : Int) : State :=
  let t := (s.toStep .check).modifyFill (fun f => { f with net := some net })
  match t.filler.fill with
  | none => t
  | some f =>
    if (f.target : Int) + f.tolerance < net then t.enterReject .overweight
    else if (f.target : Int) - f.tolerance ≤ net then t.accept
    else if f.topupDone then t.enterReject .underweight
    else t.enterTopup net

/-! ### Settled readings (R104, R108, R109, R111) -/

/-- Entering TARE: a settle request (R104). -/
def State.enterTare (s : State) : State := (s.toStep .tare).askSettle .fill

/-- The tare settles (R104). -/
def State.tareSettled (s : State) (r : Reading) : State :=
  match s.filler.fill with
  | none => s
  | some f =>
    if r.isOver || r.weight < f.tareMin || f.tareMax < r.weight then s.enterReject .tareRange
    else (s.modifyFill (fun f => { f with tare := some r.weight, lastNet := some 0 })).enterFeed 1

/-- Adaptation of a component's feeder at the completion of SETTLE(k) (R109). -/
def State.adapt (s : State) (n : Nat) (c : CompState) (net : Int) : State :=
  if c.opened && !c.short then
    let e := net - c.cumulative
    if -200 ≤ e && e ≤ 200 then
      s.setFiller { s.filler with
        inflight := s.filler.inflight.setIfInBounds (c.feeder - 1) (adapted (s.inflight c.feeder) e) }
    else s.onBooks (·.raiseNotice .wildFill (some n) none (some c.feeder))
  else s

/-- SETTLE(k) completes: the settled net and the actual, adaptation, and the next component or CHECK (R108). -/
def State.componentSettled (s : State) (k : Nat) (r : Reading) : State :=
  match s.filler.fill with
  | none => s
  | some f =>
    match f.comp? k with
    | none => s
    | some c =>
      let net := r.weight - f.tare.getD 0
      let t := (s.modifyFill (fun f => f.modifyComp k (fun c =>
        { c with settled := some net, actual := net - f.netBeforeComp k }))).adapt f.invoice c net
      if k < f.comps.length then t.enterFeed (k + 1) else t.check net

/-- The top-up settle completes: the gain joins the component's actual, and CHECK judges again (R111). -/
def State.topupSettled (s : State) (r : Reading) : State :=
  match s.filler.fill with
  | none => s
  | some f =>
    let net := r.weight - f.tare.getD 0
    let t := s.modifyFill (fun f =>
      match f.topupComp with
      | some k => f.modifyComp k (fun c => { c with actual := c.actual + (net - f.netBefore.getD 0) })
      | none => f)
    t.check net

/-! ### Reading updates as the Fill Sequencer sees them (R100, R105 to R107) -/

/-- The last net follows every valid reading update from the completion of TARE on (R100). -/
def State.followNet (s : State) : State :=
  match s.net? with
  | some net => s.modifyFill (fun f => { f with lastNet := some net })
  | none => s

/-- An overload: the gate closes and the chest is rejected OVER, its actuals settled from the last net (R107). -/
def State.overload (s : State) : State := s.cutFill.enterReject .overweight

/-- A valid reading update (R105, R107, R111); while HOLD is active no gate is set (R121). -/
def State.validUpdate (s : State) (r : Reading) : State :=
  let t := s.followNet
  if t.pins.hold then t
  else
    match t.filler.step with
    | .feed k => if t.filler.gate.isOpen && r.isOver then t.overload else t.feedGate k
    | .topup =>
      if t.filler.fill.any (fun f => f.topupEnd.isSome) then t
      else if t.filler.gate.isOpen && r.isOver then t.overload else t.topupGate
    | .idle | .armed | .tare | .settle _ | .check | .accept | .reject | .mark | .clear => t

/-- A reading update, valid or not: an invalid one closes the gate and holds the no-flow timer (R105). -/
def State.readingUpdate (s : State) : State :=
  match s.weigh.reading with
  | some r => s.validUpdate r
  | none => s.closeGate

/-! ### The CHEST input (R103, R119, R120) -/

/-- A rising edge: it starts the fill in ARMED (R103), and withdraws a zero capture, when FS goes IDLE (R97, R119). -/
def State.chestRises (s : State) : State :=
  match s.filler.step with
  | .armed => s.enterTare
  | .clear => if s.weigh.request.any (fun q => q.who = .capture) then s.withdrawRequest.goIdle else s
  | .idle | .tare | .feed _ | .settle _ | .topup | .check | .accept | .reject | .mark => s

/-- A falling edge: chest loss in TARE to TOPUP (R120); in CLEAR the scale is clear (R119). -/
def State.chestFalls (s : State) : State :=
  match s.filler.step with
  | .tare | .feed _ | .settle _ | .topup => s.cutFill.enterReject .chestLost
  | .clear => s.enterClear
  | .idle | .armed | .check | .accept | .reject | .mark => s

/-- An edge of CHEST: the remembered level takes the input's level, and the edge acts by the step (R103). -/
def State.chestEdgeAt (s : State) (level : Bool) : State :=
  let t := s.setFiller { s.filler with remembered := level }
  if level then t.chestRises else t.chestFalls

/-- HOLD has ended and the current step restarts from its start (the table of R121). -/
def State.restart (s : State) : State :=
  match s.filler.step with
  | .tare | .settle _ => s.askSettle .fill
  | .feed k => ({ s with filler := { s.filler with flow := none } } : State).feedGate k
  | .topup =>
    if s.filler.fill.any (fun f => f.topupEnd = some .cutoff) then s.askSettle .fill
    else (({ s with filler := { s.filler with flow := none } } : State).modifyFill
      (fun f => { f with topupEnd := none })).topupGate
  | .reject => s.setFiller { s.filler with rejectTimer := 0 }
  | .clear => s.enterClear
  | .idle | .armed | .check | .accept | .mark => s

end Sys2Proof.Machine
end

