-- ==== Sys2Proof/Machine/Marking.lean ====
section
/-! DEFINITION. The Marking Engine at work: the end of a mark (R133, R135), encoder pulses (R131, R132), the end of a
SHIFT with the nozzle check (R130, R132). -/

namespace Sys2Proof.Machine

/-- The record of a mark is present as an own PACKED record (R133). -/
def Books.ownChest? (b : Books) (n serial : Nat) : Option Chest := (b.chest? n serial).filter (fun c => c.origin = .own)

/-- Steps 1 to 3 of the end of a mark (R133): the status written, a MARK frame queued, MARK_DONE raised. -/
def Books.markDone (b : Books) (n serial : Nat) (defect : Bool) : Books :=
  let status : MarkStatus := if defect then .defect else .good
  match b.ownChest? n serial with
  | some c =>
    ((b.putChest { c with mark := status }).queueFrame none (.mark n serial status.num)).raiseNotice .markDone
      (some n) (some serial) (some status.num)
  | none => b.raiseNotice .markDone (some n) (some serial) (some 0)

/-- The engine at rest: the latch cleared, no firing pulse, no job (R133, R135).  The path stands; a SHIFT in progress is
cut short before this (`Marker.cutShift`). -/
def Marker.stop (m : Marker) : Marker := { m.clearLatch with chain := .headIdle, job := none }

/-- A mark ends (R133): the latch is cleared, the engine goes HEAD IDLE, the status is written and told, and for a
FILL mark the Fill Sequencer goes CLEAR. -/
def State.endMark (s : State) (j : Job) : State :=
  let t := (s.setMarker s.marker.stop).onBooks (·.markDone j.invoice j.serial j.defect)
  match j.requester with
  | .fill => if t.filler.step = .mark then t.enterClear else t
  | .remark => t

/-- A mark is ended early on entry to HALT: a SHIFT in progress is cut short (log 42), and the defect mark is set when mark
columns are unfired (R135). -/
def State.haltMark (s : State) : State :=
  match s.marker.job with
  | none => s
  | some j => (s.setMarker s.marker.cutShift).endMark { j with defect := j.defect || j.position ≤ j.markLength }

/-- An encoder pulse while ME takes pulses: an UPDATE in WAIT (R131), late in CAPTURE or SHIFT (R132). -/
def State.pulse (s : State) (j : Job) : State :=
  match s.marker.chain with
  | .headIdle => s
  | .capture | .shift =>
    (s.setMarker { s.marker with job := some { j with late := j.late + 1, defect := true } }).onBooks
      (·.raiseFault .markLate)
  | .wait =>
    let t := s.setMarker { s.marker with latch := s.marker.path, firing := some s.books.time }
    if j.position < j.positions then
      t.setMarker (t.marker.startShift { j with position := j.position + 1 })
    else t.endMark j

/-- The nozzle check after the first SHIFT (R130): HEAD_NOZZLE when a used row's nozzle is not ready, else its cause
clears. -/
def State.nozzleCheck (s : State) (j : Job) (ready : BitVec 32) : State :=
  let bad := j.usedRows &&& ~~~ready ≠ 0
  let t := s.setMarker { s.marker with job := some { j with ready := some ready, defect := j.defect || bad } }
  if bad then t.onBooks (·.raiseFault .headNozzle) else t.onBooks (·.clearCause .headNozzle)

/-- The 32 bits of a SHIFT are sent: the path holds them, and the engine goes WAIT, or skips the positions whose pulses
were late (R126, R131, R132). -/
def State.shiftEnds (s : State) (h : Head) : State :=
  match s.marker.job with
  | none => s
  | some j =>
    let t := s.setMarker { s.marker with path := h.stored s.marker.sends }
    if j.late = 0 then t.setMarker { t.marker with chain := .wait }
    else if j.position + j.late ≤ j.positions then
      t.setMarker (t.marker.startShift { j with position := j.position + j.late, late := 0 })
    else t.endMark { j with late := 0 }

/-- A SHIFT is done with `dataIn` read: the first one of a mark brings back the ready bits (R129, R130). -/
def State.shiftDone (s : State) (h : Head) (j : Job) (dataIn : BitVec 32) : State :=
  (match j.ready with
    | none => s.nozzleCheck j (h.readyOf dataIn)
    | some _ => s).shiftEnds h

end Sys2Proof.Machine
end

