-- ==== Sys2Proof/Machine/Station.lean ====
section
/-! DEFINITION. The station state and what every block does on its changes: severe faults with the entries to HALT
(R169) and OFFLINE (R124, R171), the return to ONLINE (R170), and going ONLINE (R22, R91, R177). -/

namespace Sys2Proof.Machine

/-- The station state set. -/
def State.setStation (s : State) (st : StationState) : State := s.setBooks { s.books with station := st }

/-! ### The reply of the command in hand (R173) -/

/-- The command being processed has its response, not yet in the buffer (R173). -/
def State.reply (s : State) (st : Status) (data : List Byte) : State :=
  match s.port.command with
  | none => s
  | some code => s.setPort { s.port with reply := some ⟨code, st, data⟩ }

/-! ### HALT (R169) -/

/-- The Fill Sequencer on entry to HALT, by its step (R123). -/
def State.haltFill (s : State) : State :=
  match s.filler.step with
  | .armed | .tare | .feed _ | .settle _ | .topup | .check => s.abortFill .halted
  | .clear => if s.pins.chest then s else s.withdrawLane.goIdle
  | .idle | .accept | .reject | .mark => s

/-- The blocks' actions on entry to HALT, in the order of R169's table but for a mark, which ends as the Fill
Sequencer's step MARK does (log 13). -/
def State.enterHalt (s : State) : State :=
  let t := (s.setStation .halt).haltFill.haltMark
  (t.onBooks (·.removeClaims t.filling)).withdrawLane

/-- A raise of a fault of codes 3 to 5 (R165, R169): in ONLINE the station enters HALT. -/
def State.raiseHalting (s : State) (c : FaultCode) : State :=
  let t := s.onBooks (·.raiseFault c)
  if t.books.station = .online then t.enterHalt else t

/-! ### OFFLINE (R124, R171) -/

/-- The Fill Sequencer on entry to OFFLINE (R124, R171): a fill cut in ARMED to CHECK is reported if it has drawn, and
told of; every fill ends with the reservation freed and FS IDLE. -/
def State.offlineFill (s : State) : State :=
  match s.filler.fill with
  | none => s.goIdle
  | some _ =>
    if s.filler.step.inFill then
      let t := s.cutFill.toStep .idle
      match t.filler.fill with
      | none => t.goIdle
      | some f =>
        let t₁ := if f.drawn then
            (t.onBooks (·.raiseNotice .chestRejected (some f.invoice) none (some RejectReason.halted.num))).queueReport f
          else t
        (t₁.onBooks (fun b => (b.chestLost f).dropReservation)).goIdle
    else (s.onBooks Books.dropReservation).goIdle

/-- Every settle request is withdrawn; a waiting ZERO SCALE ends NOT_STEADY (R99). -/
def State.offlineWeigh (s : State) : State :=
  if s.weigh.request.any (fun q => q.who = .zeroScale) then s.withdrawRequest.reply .notSteady []
  else s.withdrawRequest

/-- A raise of a fault of codes 1 and 2: the station goes OFFLINE, from any state, until reset (R171); a SHIFT in progress
is cut short (R135; log 42). -/
def State.raiseOffline (s : State) (c : FaultCode) : State :=
  let t := s.onBooks (·.raiseFault c)
  if t.books.station = .offline then t
  else
    let t₁ := (t.setStation .offline).offlineFill
    (t₁.setMarker t₁.marker.cutShift.stop).offlineWeigh

/-! ### ONLINE (R22, R91, R170, R177) -/

/-- SCALE_SATURATED's condition stands: a saturation run of 1,000 ms or more not raised yet (R90, R91). -/
def State.saturationDue (s : State) : Bool :=
  !s.weigh.saturationRaised && s.weigh.saturatedSince.any (fun t => 1000 ≤ msSince t s.books.time)

/-- SCALE_SATURATED is raised for the run in progress (R90, R91). -/
def State.raiseSaturation (s : State) : State :=
  if s.saturationDue then
    (s.setWeigh { s.weigh with saturationRaised := true }).raiseHalting .scaleSaturated
  else s

/-- The station goes ONLINE: the wait clears, ONLINE is raised, and any sample fault whose cause stands is raised at
the same moment, which puts the station in HALT (R91, R169, R177). -/
def State.goOnline (s : State) : State :=
  let t := (s.setBooks { s.books with station := .online, onlineWait := false }).onBooks
    (·.raiseNotice .online none none none)
  (if t.weigh.lossFound then t.raiseHalting .sampleLoss else t).raiseSaturation

/-- The last entry of codes 3 to 5 is gone: the station returns from HALT to ONLINE (R170). -/
def State.returnOnline (s : State) : State :=
  if s.books.station = .halt && !s.books.anyHalting then s.setStation .online else s

end Sys2Proof.Machine
end

