-- ==== Sys2Proof/Machine/Port.lean ====
section
/-! DEFINITION. The Command Port: what a transaction returns on MISO (R172), the order of refusals (R174), and taking
a command (R172, R173). -/

namespace Sys2Proof.Machine

/-- What `n` clocked bytes return in a command transaction: the port byte, then 00h (R172). -/
def State.misoOf (s : State) : Nat → List Byte
  | 0 => []
  | n + 1 => s.portByte :: List.replicate n 0

/-- The parameter length of a command code; absent when the code is none of the layout table's (12, Layouts). -/
def layoutLength (code : Byte) : Option Nat :=
  match code.toNat with
  | 0x01 => some 36 | 0x02 => some 0 | 0x10 => some 40 | 0x11 => some 2 | 0x12 => some 2 | 0x13 => some 2
  | 0x20 => some 2 | 0x21 => some 0 | 0x22 => some 3 | 0x23 => some 4 | 0x24 => some 3
  | 0x30 => some 5 | 0x31 => some 1 | 0x32 => some 1 | 0x33 => some 0
  | 0x40 => some 2 | 0x41 => some 4 | 0x42 => some 1 | 0x43 => some 4 | 0x44 => some 0 | 0x45 => some 1
  | 0x46 => some 1 | 0x47 => some 3 | 0x7F => some 0
  | _ => none

/-- The station state allows the command (the table of R174, but for step 4). -/
def stateAllows (code : Byte) (st : StationState) : Bool :=
  match code.toNat with
  | 0x01 => st = .unconfigured
  | 0x02 => st = .configured
  | 0x40 | 0x41 | 0x42 | 0x43 | 0x44 | 0x45 | 0x47 | 0x7F => true
  | _ => st.onLine

/-- START CHEST, CLOSE INVOICE and REMARK, which HALT refuses (R174, step 4). -/
def haltRefuses (code : Byte) : Bool := code = 0x20 || code = 0x12 || code = 0x24

/-- The refusal given before a command's own checks, in R174's order; absent when it passes. -/
def refusalOf (code : Byte) (length : Nat) (st : StationState) : Option Status :=
  match layoutLength code with
  | none => some .unknownCommand
  | some n =>
    if length ≠ n then some .range
    else if !stateAllows code st then some .wrongState
    else if st = .halt && haltRefuses code then some .halted
    else none

/-- A transaction that changes nothing but the bytes returned on MISO. -/
def State.transact (s : State) (miso : List Byte) : State := s.setPort { s.port with miso := miso }

/-- A command is taken at the rising edge of chip select: BUSY is set, RESPONSE READY cleared, and the buffer no
longer holds a response (R172, R173).  `length` bytes came after the code and the length byte. -/
def State.take (s : State) (code : Byte) (length : Nat) : State :=
  s.setPort { busy := true, ready := false, command := some code, reply := none, buffer := none,
              miso := s.misoOf (length + 2) }

/-- A command transaction that arrived whole: discarded when BUSY is set (R172); else taken, checked by R174 and, when
it passes, acted on by `body`.  The bytes beyond the stated length are ignored but for the MISO bytes they clock
(R172; log 24).  `data` is what a refusal carries. -/
def State.hostCommand (s : State) (code : Byte) (params : Params) (data : State → List Byte)
    (body : State → State) : State :=
  if s.port.busy || s.inReset then s.transact (s.misoOf (params.stated.length + params.beyond.length + 2))
  else
    let t := s.take code (params.stated.length + params.beyond.length)
    match refusalOf code params.stated.length t.books.station with
    | some st => t.reply st (data t)
    | none => body t

/-- A refusal carries no data (R174). -/
def noData : State → List Byte := fun _ => []

/-- The free-value counter moved past `k` free bytes (log 19). -/
def State.spend (s : State) (k : Nat) : State := { s with spare := s.spare + k }

/-- The response in READ RESPONSE: the held one, or 00h, BUSY and length 0 (R173). -/
def State.responseBytes (s : State) : List Byte :=
  match s.port.busy, s.port.buffer with
  | false, some r => r.bytes
  | _, _ => [0x00, Status.busy.code, 0x00]

end Sys2Proof.Machine
end

