-- ==== Sys2Proof/Machine/Timing.lean ====
section
/-! DEFINITION. The passing of time: how station time and the timers run, how far off each timed moment is, and which
one comes next (log 2, 3, 4). -/

namespace Sys2Proof.Machine

/-- The settle timer runs while a request is present and the reading is steady (R95). -/
def Weigh.running (w : Weigh) : Bool := w.request.isSome && w.steady

/-- The settle time (R86); none is held before CONFIGURE. -/
def Weigh.settleTime (w : Weigh) : Nat := (w.scale.map (·.settle)).getD 0

/-- The response goes into the buffer; BUSY clears and RESPONSE READY sets (R173). -/
def Port.deliver (p : Port) (r : Response) : Port :=
  { p with busy := false, ready := true, command := none, reply := none, buffer := some r }

/-- The response of the command in hand is ready, where it has been made (R173). -/
def Port.ripen (p : Port) : Port :=
  match p.busy, p.reply with
  | true, some r => p.deliver r
  | _, _ => p

/-- `d` ms of station time pass: the settle timer runs (R95), the no-flow timer runs while a gate is open (R106), the
reject pulse timer runs while the pulse is on (R117, R121), and a response that has been made is ready within the first of
them (R173; log 25). -/
def State.elapse (s : State) (d : Nat) : State :=
  let w := s.weigh
  let f := s.filler
  { s with
    books := { s.books with time := later s.books.time d },
    weigh := { w with timer := if w.running then min w.settleTime (w.timer + d) else w.timer },
    filler := { f with
      flow := if f.gate.isOpen then f.flow.map (fun x => { x with timer := min 1500 (x.timer + d) }) else f.flow,
      rejectTimer := if f.step = .reject && !s.pins.hold then min 200 (f.rejectTimer + d) else f.rejectTimer },
    port := if d = 0 then s.port else s.port.ripen }

/-! ### How many ms off each timed moment is; absent when none is coming -/

/-- The held word joins the window 1 ms after its completion (R88). -/
def State.goodSampleIn (s : State) : Option Nat :=
  match s.weigh.scale, s.weigh.holding with
  | some _, some h => some (msUntil (later h.time 1) s.books.time)
  | _, _ => none

/-- 50 ms without a good sample, once for each gap (R91). -/
def State.sampleLossIn (s : State) : Option Nat :=
  match s.weigh.lastGood with
  | some t => if s.weigh.lossFound then none else some (msUntil (later t 50) s.books.time)
  | none => none

/-- The settle timer reaches the settle time (R95). -/
def State.settleIn (s : State) : Option Nat :=
  if s.weigh.running && s.weigh.reading.isSome then some (s.weigh.settleTime - s.weigh.timer) else none

/-- A settle request has been present for 5,000 ms, once for each request, but not ZERO SCALE's (R96). -/
def State.settleSlowIn (s : State) : Option Nat :=
  match s.weigh.request with
  | some q => if q.slow || q.who = .zeroScale then none else some (msUntil (later q.time 5000) s.books.time)
  | none => none

/-- ZERO SCALE has waited 5,000 ms (R98). -/
def State.zeroScaleIn (s : State) : Option Nat :=
  match s.weigh.request with
  | some q => if q.who = .zeroScale then some (msUntil (later q.time 5000) s.books.time) else none
  | none => none

/-- The no-flow timer reaches 1,500 ms with a gate open (R106). -/
def State.noFlowIn (s : State) : Option Nat :=
  match s.filler.flow with
  | some w => if s.filler.gate.isOpen then some (1500 - w.timer) else none
  | none => none

/-- The reject pulse reaches 200 ms (R117). -/
def State.rejectEndIn (s : State) : Option Nat :=
  if s.filler.step = .reject && !s.pins.hold then some (200 - s.filler.rejectTimer) else none

/-- The census window of a record ends (R37, R40). -/
def State.censusEndIn (s : State) (n : Nat) : Option Nat :=
  match s.books.invoice? n with
  | some r =>
    match r.phase with
    | .window ends => some (msUntil ends s.books.time)
    | .none | .queued => none
  | none => none

/-- The close window of a round ends (R156). -/
def State.closeEndIn (s : State) (n : Nat) : Option Nat :=
  match s.books.round? n with
  | some d =>
    match d.phase with
    | .window ends => some (msUntil ends s.books.time)
    | .callQueued | .extension _ => none
  | none => none

/-- The extension of a round ends (R157). -/
def State.extensionEndIn (s : State) (n : Nat) : Option Nat :=
  match s.books.round? n with
  | some d =>
    match d.phase with
    | .extension ends => some (msUntil ends s.books.time)
    | .callQueued | .window _ => none
  | none => none

/-- The firing pulse, 100 µs long, is over once station time has moved on (R131; log 30). -/
def State.firingOver (s : State) : Bool := s.marker.firing.any (fun t => t ≠ s.books.time)

/-- A timed row taken at its moment: without effect when that moment is not coming (log 1); else time passes up to the
moment (log 3), and `f` is what happens there. -/
def State.atMoment (s : State) (wait : Option Nat) (f : State → State) : State :=
  match wait with
  | none => s
  | some d => f (s.elapse d)

/-- The timed moment that has come and is taken next when no command waits, in a fixed order (log 4). -/
def State.dueNow (s : State) : Option Instr :=
  if s.inReset then none
  else if s.port.busy && s.port.reply.isSome then some .responseReady
  else if s.goodSampleIn = some 0 then some .goodSample
  else if s.sampleLossIn = some 0 then some .sampleLoss
  else if s.settleIn = some 0 then some .settleComplete
  else if s.settleSlowIn = some 0 then some .settleSlow
  else if s.zeroScaleIn = some 0 then some .zeroScaleTimeout
  else if s.noFlowIn = some 0 then some .noFlow
  else if s.rejectEndIn = some 0 then some .rejectPulseEnd
  else if s.firingOver then some .firingPulseEnd
  else
    match (s.books.invoices.map (·.number)).find? (fun n => s.censusEndIn n = some 0) with
    | some n => some (.censusWindowEnd n)
    | none =>
      match (s.books.rounds.map (·.invoice)).find? (fun n => s.closeEndIn n = some 0) with
      | some n => some (.closeWindowEnd n)
      | none => ((s.books.rounds.map (·.invoice)).find? (fun n => s.extensionEndIn n = some 0)).map .extensionEnd

/-- What passes in an idle step: 1 ms of station time, but none while reset is in progress (log 2). -/
def State.idleTick (s : State) : State := if s.inReset then s else s.elapse 1

end Sys2Proof.Machine
end

