-- ==== Sys2Proof/Machine/BinCommands.lean ====
section
/-! DEFINITION. The bin commands BIN FILL, BIN EMPTY and BIN WITHDRAW (R74). -/

namespace Sys2Proof.Machine

/-- A bin command past R174's first four checks: RANGE outside 1 to 64; else one BIN frame is queued, filled from the
record of the moment, and the record is not changed (R74). -/
def State.binBody (s : State) (n action : Nat) (batch quantity : Bin → Nat) : State :=
  if inside 1 64 n then
    (s.onBooks (fun b => b.queueFrame none (.bin 0 n action (batch (b.bin n)) (quantity (b.bin n))))).reply .ok []
  else s.reply .range []

/-- BIN FILL (R74). -/
def execBinFill (params : Params) (s : State) : Host.Outcome State Fault Refusal :=
  .next (s.hostCommand 0x30 params noData
    (fun t => t.binBody (byteAt params.stated 0) 1 (fun _ => num2 params.stated 1) (fun _ => num2 params.stated 3)))

/-- BIN EMPTY (R74). -/
def execBinEmpty (params : Params) (s : State) : Host.Outcome State Fault Refusal :=
  .next (s.hostCommand 0x31 params noData
    (fun t => t.binBody (byteAt params.stated 0) 2 (fun r => r.batch.getD 0) (fun _ => 0)))

/-- BIN WITHDRAW (R74). -/
def execBinWithdraw (params : Params) (s : State) : Host.Outcome State Fault Refusal :=
  .next (s.hostCommand 0x32 params noData
    (fun t => t.binBody (byteAt params.stated 0) 3 (fun r => r.batch.getD 0) (fun r => r.remaining.getD 0)))

end Sys2Proof.Machine
end

