-- ==== Sys2Proof/Machine/ChestCommands.lean ====
section
/-! DEFINITION. The chest commands: START CHEST, ABORT CHEST, VOID CHEST, RECORD SAMPLE, REMARK (07 to 09), and ZERO
SCALE (06). -/

namespace Sys2Proof.Machine

/-! ### START CHEST (R102) -/

/-- The components of a new fill, with their cumulative targets; `sum` is what the components before add up to
(R81, R100). -/
def Books.newComps (b : Books) : Nat → List (Component × Nat) → List CompState
  | _, [] => []
  | sum, (c, t) :: l =>
    { feeder := b.feederOf c.bin, target := t, cumulative := sum + t, coarseCut := none, fineCut := none,
      settled := none, actual := 0, short := false, opened := false, fine := false } :: b.newComps (sum + t) l

/-- The chest-in-progress record that START CHEST makes (R100). -/
def Books.newFill (b : Books) (r : Invoice) (reservation : Nat) : Fill where
  invoice := r.number
  freed := false
  reservation := reservation
  target := r.target
  tolerance := r.tolerance
  tareMin := r.tareMin
  tareMax := r.tareMax
  recipe := r.recipe
  shareTolerance := r.shareTolerance
  comps := b.newComps 0 (r.recipe.zip (targets r.target r.recipe))
  tare := none
  lastNet := none
  topupDone := false
  topupComp := none
  netBefore := none
  topupEnd := none
  net := none
  serial := none
  reason := none

/-- A REMARK mark runs (R102, R136). -/
def State.remarking (s : State) : Bool := s.marker.job.any (fun j => j.requester = .remark)

/-- The first check of R102 that fails, with the bin it carries; or the invoice and the reservation number. -/
def State.startCheck (s : State) (n : Nat) : Except (Status × List Byte) (Invoice × Nat) :=
  if s.filler.step ≠ .idle || s.remarking then .error (.busy, [])
  else
    match s.books.invoice? n with
    | none => .error (.notActive, [])
    | some r =>
      if r.state ≠ .active || r.full then .error (.notActive, [])
      else
        match s.books.reservable with
        | none => .error (.tableFull, [])
        | some k =>
          if s.weigh.reading.isNone then .error (.notSteady, [])
          else
            match s.books.binChecks (r.recipe.zip (targets r.target r.recipe)) with
            | some (st, bin) => .error (st, be1 bin)
            | none => .ok (r, k)

/-- START CHEST taken (R102): the reservation, the chest-in-progress record, the claim check, then ARMED. -/
def State.armFill (s : State) (r : Invoice) (k : Nat) : State :=
  let t := (s.setBooks (s.books.reserve k)).setFiller { s.filler with fill := some (s.books.newFill r k) }
  (t.onBooks (·.claimCheck r.number)).toStep .armed

/-- START CHEST past R174's first four checks. -/
def State.startBody (s : State) (n : Nat) : State :=
  match s.startCheck n with
  | .error (st, data) => s.reply st data
  | .ok (r, k) => (s.armFill r k).reply .ok (be1 k)

/-- START CHEST (R102). -/
def execStartChest (params : Params) (s : State) : Host.Outcome State Fault Refusal :=
  .next (s.hostCommand 0x20 params noData (fun t => t.startBody (num2 params.stated 0)))

/-! ### ABORT CHEST (R122) -/

/-- The steps in which ABORT CHEST is taken (R122). -/
def FillStep.abortable : FillStep → Bool
  | .armed | .tare | .feed _ | .settle _ | .topup => true
  | .idle | .check | .accept | .reject | .mark | .clear => false

/-- ABORT CHEST past R174's first four checks. -/
def State.abortBody (s : State) : State :=
  if s.filler.step.abortable then (s.abortFill .aborted).reply .ok [] else s.reply .notActive []

/-- ABORT CHEST (R122). -/
def execAbortChest (params : Params) (s : State) : Host.Outcome State Fault Refusal :=
  .next (s.hostCommand 0x21 params noData State.abortBody)

/-! ### VOID CHEST (R63, R143) -/

/-- The first check of R143 that fails, the Serial Allocator's answer of R63 among them. -/
def Books.voidRefusal (b : Books) (n serial : Nat) : Option Status :=
  match b.invoice? n with
  | none => some .notActive
  | some r =>
    if r.state ≠ .active then some .notActive
    else
      match b.chest? n serial with
      | none => some .notActive
      | some c =>
        if c.origin ≠ .own then some .notOwn
        else if serial ≤ r.ceiling && 16 ≤ r.free.length then some .listFull
        else none

/-- A voided serial at or below the ceiling joins the free list; one above it is surrendered (R63). -/
def Invoice.takeBack (r : Invoice) (serial : Nat) : Invoice :=
  if serial ≤ r.ceiling then { r with free := insertAsc serial r.free } else r

/-- VOID CHEST taken (R143): the record goes, the serial is dealt with, FULL is evaluated, a VOID frame is queued. -/
def Books.voidChest (b : Books) (n serial : Nat) : Books :=
  let b₁ := (b.dropChests (fun c => c.invoice = n && c.key = .packed serial)).modifyInvoice n (·.takeBack serial)
  (b₁.evalFull n).queueFrame none (.void n serial)

/-- VOID CHEST past R174's first four checks. -/
def State.voidBody (s : State) (n serial : Nat) : State :=
  match s.books.voidRefusal n serial with
  | some st => s.reply st []
  | none => (s.onBooks (·.voidChest n serial)).reply .ok []

/-- VOID CHEST (R143). -/
def execVoidChest (params : Params) (s : State) : Host.Outcome State Fault Refusal :=
  .next (s.hostCommand 0x22 params noData (fun t => t.voidBody (num2 params.stated 0) (byteAt params.stated 2)))

/-! ### RECORD SAMPLE (R145) -/

/-- The first check of R145 that fails. -/
def Books.sampleRefusal (b : Books) (n serial weight : Nat) : Option Status :=
  if !inside 1 50 weight then some .range
  else if !(b.invoice? n).any (fun r => r.state = .active || r.state = .closing) then some .notActive
  else
    match b.chest? n serial with
    | none => some .notActive
    | some c => if c.sample.isSome then some .sampled else if c.net < weight then some .range else none

/-- RECORD SAMPLE taken (R145): the sample is set, and a SAMPLE frame is queued. -/
def Books.recordSample (b : Books) (n serial weight : Nat) : Books :=
  match b.chest? n serial with
  | none => b
  | some c => (b.putChest { c with sample := some weight }).queueFrame none (.sample n serial weight)

/-- RECORD SAMPLE past R174's first four checks. -/
def State.sampleBody (s : State) (n serial weight : Nat) : State :=
  match s.books.sampleRefusal n serial weight with
  | some st => s.reply st []
  | none => (s.onBooks (·.recordSample n serial weight)).reply .ok []

/-- RECORD SAMPLE (R145). -/
def execRecordSample (params : Params) (s : State) : Host.Outcome State Fault Refusal :=
  .next (s.hostCommand 0x23 params noData
    (fun t => t.sampleBody (num2 params.stated 0) (byteAt params.stated 2) (byteAt params.stated 3)))

/-! ### REMARK (R136) -/

/-- The first check of R136 that fails. -/
def State.remarkRefusal (s : State) (n serial : Nat) : Option Status :=
  if s.marker.head.isNone then some .notActive
  else if s.filler.step ≠ .idle || s.marker.chain ≠ .headIdle || s.pins.chest then some .busy
  else
    match s.books.chest? n serial with
    | none => some .notActive
    | some c =>
      if c.origin ≠ .own then some .notOwn
      else if c.mark = .pending || c.mark = .defect then none
      else some .notActive

/-- REMARK past R174's first four checks. -/
def State.remarkBody (s : State) (n serial : Nat) : State :=
  match s.remarkRefusal n serial with
  | some st => s.reply st []
  | none => (s.startMark .remark n serial).reply .ok []

/-- REMARK (R136). -/
def execRemark (params : Params) (s : State) : Host.Outcome State Fault Refusal :=
  .next (s.hostCommand 0x24 params noData (fun t => t.remarkBody (num2 params.stated 0) (byteAt params.stated 2)))

/-! ### ZERO SCALE (R98) -/

/-- ZERO SCALE past R174's first four checks: its response comes at the outcome. -/
def State.zeroBody (s : State) : State :=
  if s.filler.step ≠ .idle || s.pins.chest then s.reply .busy [] else s.placeRequest .zeroScale

/-- ZERO SCALE (R98). -/
def execZeroScale (params : Params) (s : State) : Host.Outcome State Fault Refusal :=
  .next (s.hostCommand 0x33 params noData State.zeroBody)

end Sys2Proof.Machine
end

