-- ==== Sys2Proof/Machine/FieldEvents.lean ====
section
/-! DEFINITION. Events of the field lines: converter clocks, the CHEST and HOLD inputs, encoder pulses, and the end of a
SHIFT (06, 07, 08). -/

namespace Sys2Proof.Machine

/-! ### The converter (R87, R88) -/

/-- The count of a word's 24 bits, the first the most significant, in two's complement (06, The sample input). -/
def wordCount (bits : List Bool) : Int :=
  let v := bits.foldl (fun a b => 2 * a + (if b then 1 else 0)) 0
  if v < 2 ^ 23 then (v : Int) else (v : Int) - 2 ^ 24

/-- A completed word goes into the holding register, or is discarded as an overrun (R88). -/
def Weigh.complete (w : Weigh) (now : Time) (bits : List Bool) : Weigh :=
  match w.holding with
  | some _ => { w with word := none }
  | none => { w with word := none, holding := some ⟨wordCount bits, now⟩ }

/-- One rising clock edge at the word assembler (R87). -/
def Weigh.clock (now : Time) (w : Weigh) (e : SampleEdge) : Weigh :=
  if e.frame then { w with word := some [e.data] }
  else
    match w.word with
    | none => w
    | some bits =>
      if bits.length < 23 then { w with word := some (bits ++ [e.data]) } else w.complete now (bits ++ [e.data])

/-- SAMPLE_WORD (R87, R88); until CONFIGURE every word is discarded (R86). -/
def execSampleWord (edges : List SampleEdge) (s : State) : Host.Outcome State Fault Refusal :=
  .next (if s.weigh.scale.isSome then s.setWeigh (edges.foldl (Weigh.clock s.books.time) s.weigh) else s)

/-! ### CHEST (R98, R103) -/

/-- ZERO SCALE waits for a settle. -/
def State.zeroing (s : State) : Bool := s.weigh.request.any (fun q => q.who = .zeroScale)

/-- A rise of CHEST ends a waiting ZERO SCALE with BUSY (R98; log 22). -/
def State.endZeroing (s : State) : State := if s.zeroing then s.withdrawRequest.reply .busy [] else s

/-- The CHEST input changes to `level` (R98, R103): under HOLD, or while reset is in progress, it is no edge. -/
def State.chestChanges (s : State) (level : Bool) : State :=
  let t := s.setPins { s.pins with chest := level }
  let t' := if level then t.endZeroing else t
  if t'.pins.hold || t'.inReset then t' else t'.chestEdgeAt level

/-- CHEST_EDGE (R103). -/
def execChestEdge (level : Bool) (s : State) : Host.Outcome State Fault Refusal :=
  .next (if s.pins.chest = level then s else s.chestChanges level)

/-! ### HOLD (R121, R134) -/

/-- The Fill Sequencer as HOLD becomes active (R121): every gate closed, both timers at 0. -/
def Filler.held (f : Filler) : Filler := { f with gate := .closed, flow := none, rejectTimer := 0 }

/-- The Marking Engine as HOLD becomes active (R134): a firing pulse that runs ends with a clear. -/
def Marker.held (m : Marker) : Marker := if m.firing.isSome then m.clearLatch else m

/-- HOLD becomes active (R121, R134).  The settle timer of a waiting ZERO SCALE, which is no request of the lane, runs on:
the model's choice between R95 and R121 (log 47). -/
def State.holdBegins (s : State) : State :=
  (((s.setPins { s.pins with hold := true }).setFiller s.filler.held).setMarker s.marker.held).withdrawLane

/-- HOLD_ACTIVE (R121). -/
def execHoldActive (s : State) : Host.Outcome State Fault Refusal := .next (if s.pins.hold then s else s.holdBegins)

/-- HOLD ends (R103, R121): a difference from the remembered CHEST level is an edge, then the step restarts. -/
def State.holdEnds (s : State) : State :=
  let t := s.setPins { s.pins with hold := false }
  if t.inReset then t
  else (if t.pins.chest = t.filler.remembered then t else t.chestEdgeAt t.pins.chest).restart

/-- HOLD_END (R121). -/
def execHoldEnd (s : State) : Host.Outcome State Fault Refusal := .next (if s.pins.hold then s.holdEnds else s)

/-! ### The outfeed and the head (R130 to R134) -/

/-- ENCODER_PULSE (R131, R132): none is taken while HOLD is active (R134) or no mark runs. -/
def execEncoderPulse (s : State) : Host.Outcome State Fault Refusal :=
  .next (match s.marker.job with
    | some j => if s.pins.hold then s else s.pulse j
    | none => s)

/-- SHIFT_DONE (R130, R132). -/
def execShiftDone (dataIn : BitVec 32) (s : State) : Host.Outcome State Fault Refusal :=
  .next (match s.marker.head, s.marker.job with
    | some h, some j => if s.marker.chain = .shift then s.shiftDone h j dataIn else s
    | _, _ => s)

end Sys2Proof.Machine
end

