-- ==== Sys2Proof/Machine/LineEvents.lean ====
section
/-! DEFINITION. Events of the shed line that are not a frame heard: line states, confirmed starts, the sender's part in a
frame, and the frames a receiver gives up, filters out or NAKs (01). -/

namespace Sys2Proof.Machine

/-! ### Line states (R2, R8, R9) -/

/-- The receiver has lost framing and waits for IDLE: already found, or a frame it follows in full is cut off (R9,
R14). -/
def Line.framingLost (l : Line) : Bool := l.lost || l.role = .receiver true

/-- The line at IDLE: 176 recessive samples, no frame in progress. -/
def Line.atIdle (l : Line) : Line :=
  { l with level := .idle, recessiveRun := 176, dominantRun := 0, role := .none, assembler := .empty, lost := false,
           candidate := [] }

/-- What the tables learn at IDLE (R9, R14): LINE_HELD's cause clears, and after lost framing VIEW_LOST is raised with
a stale request. -/
def Books.heardIdle (b : Books) (lost : Bool) : Books :=
  let b' := b.clearCause .lineHeld
  if lost && b'.station.onLine then (b'.raiseFault .viewLost).staleRequest else b'

/-- The line becomes IDLE (R8, R9, R14, R22). -/
def State.becomeIdle (s : State) : State :=
  let t := (s.setLine s.line.atIdle).onBooks (·.heardIdle s.line.framingLost)
  if t.books.onlineWait then t.goOnline else t

/-- The recessive run can reach 176 samples here: the line is not IDLE, and this station is not sending.  That a run which
is past 176 already, as a drive failure on a silent line leaves it, does not stand in the way of LINE_IDLE is the model's
choice (log 48). -/
def State.canIdle (s : State) : Bool := !s.inReset && s.line.level ≠ .idle && s.line.role ≠ .sender

/-- LINE_IDLE (R8). -/
def execLineIdle (s : State) : Host.Outcome State Fault Refusal :=
  .next (if s.canIdle then s.becomeIdle else s)

/-- The line at HELD: 384 dominant samples; a frame in progress is given up (R8, R9). -/
def Line.atHeld (l : Line) : Line :=
  { l with level := .held, recessiveRun := 0, dominantRun := 384, role := .none, assembler := .empty,
           lost := l.framingLost }

/-- The dominant run can reach 384 samples here: BUSY, and this station is not sending. -/
def State.canHold (s : State) : Bool := !s.inReset && s.line.level = .busy && s.line.role ≠ .sender

/-- LINE_HELD (R9), in every station state. -/
def execLineHeld (s : State) : Host.Outcome State Fault Refusal :=
  .next (if s.canHold then (s.setLine s.line.atHeld).onBooks (·.raiseFault .lineHeld) else s)

/-! ### The runs, and a confirmed start (R2, R3, R8) -/

/-- The runs after one more sample (R2). -/
def Line.sample (l : Line) (recessive : Bool) : Line :=
  if recessive then { l with recessiveRun := l.recessiveRun + 1, dominantRun := 0 }
  else { l with dominantRun := l.dominantRun + 1, recessiveRun := 0 }

/-- The runs after a stretch of samples (R2). -/
def Line.pass (l : Line) (samples : List Bool) : Line := samples.foldl Line.sample l

/-- The runs just before tick 0 of another station's H1, as far as they count: that tick is dominant and follows a
recessive sample, so it sets both runs whatever they were. -/
def Line.restart (l : Line) : Line := { l with recessiveRun := 0, dominantRun := 0 }

/-- The line as another station's frame begins: BUSY, the assembler emptied and begun with the start bit; `live` says
that the frame is followed in full (R21). -/
def Line.begun (l : Line) (live : Bool) : Line :=
  { l with level := .busy, role := .receiver live, assembler := { Assembler.empty with bits := [false] }, slot := .none,
           candidate := [] }

/-- In IDLE the samples move the runs and the hunt for a start (R2, R3): a start that they confirm begins a frame, and a
candidate that they leave in check is held. -/
def Line.seek (l : Line) (samples : List Bool) (live : Bool) : Line :=
  let r := (Receiver.seeking l.recessiveRun l.candidate).seek samples
  if r.confirmed then (l.pass samples).begun live
  else { l.pass samples with candidate := r.checking (l.candidate ++ samples) }

/-- START_CONFIRMED (R2, R3, R8): in IDLE a start that the samples confirm makes the line BUSY, and a false start leaves it
IDLE.  In any other line state the row does not come (log 7).  A row may end within a candidate, which the next one goes on
checking (log 52). -/
def execStartConfirmed (samples : List Bool) (s : State) : Host.Outcome State Fault Refusal :=
  .next (if s.line.level = .idle then s.setLine (s.line.seek samples s.books.station.onLine) else s)

/-! ### Sending (R10 to R13, R20) -/

/-- A frame may begin (R10): ONLINE or HALT, IDLE, no start candidate is being checked, and the Transmit Queue puts a frame
forward. -/
def State.canBegin (s : State) : Bool :=
  s.books.station.onLine && s.line.level = .idle && s.line.candidate = [] && s.books.contending.isSome

/-- BEGIN_FRAME (R10).  The first sample of the frame is still to come, so the runs stand; the row that ends the
transmission counts its samples (log 7). -/
def execBeginFrame (s : State) : Host.Outcome State Fault Refusal :=
  .next (if s.canBegin then
      (s.setLine { s.line with
        level := .busy, role := .sender, assembler := { Assembler.empty with bits := [false] }, slot := .none }).onBooks
        Books.beginAttempt
    else s)

/-- The characters of the frame being sent. -/
def State.sentChars (s : State) : List RxChar :=
  match s.books.sending with
  | some e => frameChars s.books.straps.station e.frame
  | none => []

/-- The bit of the frame being sent at a character and bit, both from 1; absent beyond its end. -/
def State.sentBit (s : State) (char bit : Nat) : Option Bool :=
  if char = 0 || bit = 0 || 11 < bit then none
  else (s.sentChars[char - 1]?).bind (fun c => (RxChar.bits c)[bit - 1]?)

/-- How many characters are expected once the length is known (R14), from the characters received so far. -/
def expectedChars (cs : List Byte) : Option Nat :=
  match cs with
  | [] => none
  | h1 :: _ =>
    if (mirror h1).toNat = 6 then
      if 13 ≤ cs.length then some (6 + bodyLength 6 (byteAt cs 12)) else none
    else some (6 + bodyLength (mirror h1).toNat 0)

/-- What the loser of an arbitration keeps (R11): the characters and the part of one read back so far, the lost bit
dominant; an error when the lost bit is the mark or the stop bit. -/
def lostAssembler (chars : List RxChar) (char bit : Nat) : Assembler :=
  let whole := (chars.take (char - 1)).map (·.data)
  { chars := whole, bits := (((chars[char - 1]?).map RxChar.bits).getD []).take (bit - 1) ++ [false],
    expected := expectedChars whole, error := 10 ≤ bit }

/-- The samples from the frame's first tick to tick 10 of a bit, every bit before read back as it was sent (R3, R11, R13). -/
def State.readBack (s : State) (char : Nat) (bit : BitRead) : List Bool :=
  drivenSamples ((s.sentChars.flatMap RxChar.bits).take (11 * (char - 1) + (bit.place - 1))) ++ samplesOf bit.ticks

/-- This station reads back, by the majority of ticks 8 to 10 (R3), the other level than the one `sent` that it sends. -/
def State.misreads (s : State) (sent : Bool) (char : Nat) (bit : BitRead) : Bool :=
  s.line.role = .sender && s.sentBit char bit.place = some sent && levelOf bit.ticks != sent

/-- A bit sent recessive reads dominant (R11). -/
def State.outranked (s : State) (char : Nat) (bit : BitRead) : Bool := s.misreads true char bit

/-- A bit sent dominant reads recessive (R13). -/
def State.driveFails (s : State) (char : Nat) (bit : BitRead) : Bool := s.misreads false char bit

/-- The station goes on as a receiver of the other station's frame (R11); after a clash it does not follow it in full
(R12). -/
def State.loseArbitration (s : State) (char : Nat) (bit : BitRead) : State :=
  let t := (s.setLine { s.line.pass (s.readBack char bit) with
      role := .receiver (char < 3), assembler := lostAssembler s.sentChars char bit.place }).onBooks
    (·.attemptLost s.filling)
  if char < 3 then t else t.raiseOffline .stationClash

/-- ARBITRATION_LOST (R11, R12). -/
def execArbitrationLost (char : Nat) (bit : BitRead) (s : State) : Host.Outcome State Fault Refusal :=
  .next (if s.outranked char bit then s.loseArbitration char bit else s)

/-- The frame is over for this station (R20): it waits for IDLE like any receiver. -/
def Line.frameOver (l : Line) (slot : Slot) : Line :=
  { l with role := .none, assembler := .empty, slot := slot }

/-- The frame is abandoned at the failed bit (R13): the severe fault, and the transmission reported as an attempt with
neither slot seen.  That the fault and with it the entry to HALT come before that report, while the attempt is still under
way, is the model's choice (log 49). -/
def State.abandonFrame (s : State) (char : Nat) (bit : BitRead) : State :=
  let t := (s.setLine ((s.line.pass (s.readBack char bit)).frameOver .none)).raiseHalting .lineDrive
  t.onBooks (·.attemptEnds t.filling false false)

/-- LINE_DRIVE (R13). -/
def execLineDrive (s : State) (char : Nat) (bit : BitRead) : Host.Outcome State Fault Refusal :=
  .next (if s.driveFails char bit then s.abandonFrame char bit else s)

/-! ### The end of a frame (R16, R18, R20) -/

/-- The samples of the stop bit of C2, the last before the slots. -/
def stopSamples : List Bool := List.replicate 16 true

/-- The slots with the one that this station drives dominant (R16, R18). -/
def driveSlot (x : SlotSamples) : Slot → SlotSamples
  | .none => x
  | .ack => { x with ack := 0 }
  | .nak => { x with nak := 0 }

/-- The samples of both slots. -/
def bothSlots (x : SlotSamples) : List Bool := samplesOf x.ack ++ samplesOf x.nak

/-- The end of a frame at the end of its NAK slot: `heard` are samples up to the end of C2, of which those before a
recessive one followed by a dominant one no longer count in the runs (R2). -/
def Line.frameEnds (l : Line) (heard : List Bool) (x : SlotSamples) (slot : Slot) : Line :=
  (l.restart.pass (heard ++ bothSlots (driveSlot x slot))).frameOver slot

/-- ATTEMPT_END (R20, R27): a slot is seen when it reads dominant. -/
def execAttemptEnd (ack nak : BitVec 16) (s : State) : Host.Outcome State Fault Refusal :=
  .next (if s.line.role = .sender then
      (s.setLine (s.line.frameEnds stopSamples ⟨ack, nak⟩ .none)).onBooks
        (·.attemptEnds s.filling (!levelOf ack) (!levelOf nak))
    else s)

/-! ### Frames a receiver does not take (R14 to R17) -/

/-- The characters agree with what the assembler has kept (R11): they begin with its characters, the next one begins
with its bits, an error found stays, and no character comes beyond the expected ones. -/
def Assembler.agrees (a : Assembler) (cs : List RxChar) : Bool :=
  a.chars.isPrefixOf (cs.map (·.data)) && a.bits.isPrefixOf (((cs[a.chars.length]?).map RxChar.bits).getD [])
  && (!a.error || !allSound 0 cs) && a.expected.all (fun n => cs.length ≤ n)

/-- The assembler holds H1 to H4 of a frame that passed the filter there, or that is to be NAKed (R15). -/
def Assembler.passed (a : Assembler) : Bool := 4 ≤ a.chars.length

/-- This station follows another station's frame, in full when `live`. -/
def State.following (s : State) : Bool := s.line.role = .receiver true || s.line.role = .receiver false

/-- This station follows a frame that these characters can belong to (log 1). -/
def State.follows (s : State) (cs : List RxChar) : Bool := s.following && s.line.assembler.agrees cs

/-- The frame is followed in full, and the station is ONLINE or in HALT (R19, R21). -/
def State.hears (s : State) : Bool := s.line.role = .receiver true && s.books.station.onLine

/-- The topic filter holds up no frame now (R15): H4 has ended and the frame has passed it, or the frame is followed for
timing alone (R21).  Until FRAME_FILTERED has come, H4 has not ended (log 37). -/
def State.topicSettled (s : State) : Bool := s.line.assembler.passed || !s.hears

/-- What the receiver finds after H4 in the characters: the filter is not applied again (R15). -/
def State.judged (s : State) (cs : List RxChar) : Verdict := judge (fun _ => s.topicSettled) cs

/-- Framing is lost (R14): the receiver stops assembling and waits for IDLE. -/
def Line.loseFraming (l : Line) : Line := { l.frameOver .none with lost := l.role = .receiver true }

/-- FRAME_LOST (R14). -/
def execFrameLost (samples : List Bool) (s : State) : Host.Outcome State Fault Refusal :=
  .next (if s.follows (assembled samples) && s.judged (assembled samples) = .lost
    then s.setLine (s.line.restart.pass samples).loseFraming else s)

/-- The sender's number in H2 of the characters received. -/
def senderOf (chars : List RxChar) : Nat := (mirror (BitVec.ofNat 8 (byteAt (chars.map (·.data)) 1))).toNat

/-- A frame filtered out (R15) leaves the line as `l`; the repeat memory of its sender becomes absent (R32). -/
def State.filterOut (s : State) (sender : Nat) (l : Line) : State :=
  let t := s.setLine l
  if s.hears then t.onBooks (·.setRepeat sender none) else t

/-- H1 to H4 are kept: the frame goes on (R15). -/
def Line.keepHeader (l : Line) (cs : List RxChar) : Line :=
  { l with assembler :=
      { chars := cs.map (·.data), bits := [], expected := expectedChars (cs.map (·.data)), error := !allSound 0 cs } }

/-- The end of H4 (R15): a frame of a filtered kind for an invoice that is not in the table now is filtered out; any other
goes on.  That a frame followed for timing alone is dropped here too is the model's choice (log 50). -/
def State.headerEnds (s : State) (samples : List Bool) (cs : List RxChar) : State :=
  let l := s.line.restart.pass samples
  match judge s.books.hasInvoice cs with
  | .filtered => s.filterOut (senderOf cs) (l.frameOver .none)
  | .unfinished => if cs.length = 4 then s.setLine (l.keepHeader cs) else s
  | .lost | .naked | .taken _ _ => s

/-- FRAME_FILTERED (R15), the one row at the end of H4: the filter acts here and nowhere else (log 37). -/
def execFrameFiltered (samples : List Bool) (s : State) : Host.Outcome State Fault Refusal :=
  .next (if s.follows (assembled samples) && !s.line.assembler.passed
    then s.headerEnds samples (assembled samples) else s)

/-- A damaged or out-of-range frame (R16, R17): in ONLINE and HALT the NAK slot is driven, and every open invoice is
asked to go STALE. -/
def State.nakFrame (s : State) (heard : List Bool) (x : SlotSamples) : State :=
  if s.hears then (s.setLine (s.line.frameEnds heard x .nak)).onBooks Books.staleRequest
  else s.setLine (s.line.frameEnds heard x .none)

/-- FRAME_NAKED (R16). -/
def execFrameNaked (samples : FrameSamples) (s : State) : Host.Outcome State Fault Refusal :=
  .next (if s.follows (assembled samples.body) && s.judged (assembled samples.body) = .naked
    then s.nakFrame samples.body samples.slots else s)

end Sys2Proof.Machine
end

