-- ==== Sys2Proof/Machine/Frames.lean ====
section
/-! DEFINITION. Frames heard from other stations, each handed to the block that owns its kind (R18, R19), and the close
as other stations' frames drive it (R152, R153, R155, R161, R162). -/

namespace Sys2Proof.Machine

/-! ### Taking a frame (R17 to R19, R32) -/

/-- The frame needs its invoice's record at the hand-off: a filtered kind whose record is gone is discarded (R19).  A record
opened again under the number before the frame's end takes the frame, by R19's test and against R50's sentence: the model's
choice (log 54). -/
def Books.passes (b : Books) (f : Frame) : Bool := !kindFiltered f.kind || b.hasInvoice f.invoice

/-- The repeat memory of the sender after a taken frame (R32). -/
def Books.remember (b : Books) (sender : Nat) (f : Frame) : Books :=
  match f with
  | .chest n r => b.setRepeat sender (some ⟨n, r⟩)
  | .closeCall .. | .closed .. | .tally .. | .claim .. | .void .. | .sample .. | .mark .. | .bin .. | .census .. =>
    b.setRepeat sender none

/-- A frame taken by this station: the ACK slot is driven, the frame is handed to its owner by `hand`, and the repeat
memory follows (R18, R19, R32). -/
def State.takeFrame (s : State) (q : Sender) (f : Frame) (hand : Books → Books) : State :=
  (s.setLine (s.line.frameEnds stopSamples q.slots .ack)).onBooks
    (fun b => (if b.passes f then hand b else b).remember q.number.toNat f)

/-- A whole, sound frame from the sender `q` reaches its end.  Not followed in full it is discarded (R21); out of range it
is NAKed (R17); else it is taken.  A frame that this station does not follow, that contradicts what it has kept, or of a
filtered kind whose H4 has not ended (R15), cannot come (log 1, 37). -/
def State.receive (s : State) (q : Sender) (f : Frame) (hand : Books → Books) : State :=
  if !s.follows (frameChars q.number.toNat f) then s
  else if !s.hears then s.setLine (s.line.frameEnds stopSamples q.slots .none)
  else if kindFiltered f.kind && !s.topicSettled then s
  else if f.inRange q.number.toNat then s.takeFrame q f hand
  else s.nakFrame stopSamples q.slots

/-! ### CENSUS, TALLY (R38, R39) -/

/-- A CENSUS heard: the planned counts are compared (R45), then a TALLY answers it (R38; log 11). -/
def Books.heardCensus (b : Books) (fill : Option Nat) (n planned : Nat) : Books :=
  (b.comparePlan fill n planned).queueTally n 1 (inProgressOf fill n)

/-- CENSUS_FRAME (R38). -/
def execCensusFrame (sender : Sender) (invoice : BitVec 16) (planned : Byte) (s : State) :
    Host.Outcome State Fault Refusal :=
  .next (s.receive sender (.census invoice.toNat planned.toNat)
    (·.heardCensus s.filling invoice.toNat planned.toNat))

/-- The answer that a close TALLY gives (R155). -/
def Tally.answer (t : Tally) (station : Nat) : Answer :=
  { station := station, inProgress := t.inProgress, packed := t.packed, free := t.free, net := t.net }

/-- The invoice is CLOSING here with role CLOSER. -/
def Books.closing (b : Books) (n : Nat) : Bool :=
  (b.invoice? n).any (fun r => r.state = .closing && r.role = some .closer)

/-- A TALLY heard (R39): the sender joins; the high mark is raised but in CLOSED; the planned counts are compared; a
census answer joins a running window's tally set, a close answer is recorded by the closer (R155). -/
def Books.heardTally (b : Books) (fill : Option Nat) (sender n : Nat) (t : Tally) : Books :=
  let b₁ := b.joinParticipants n sender
  let b₂ := if (b₁.invoice? n).any (fun r => r.state = .closed) then b₁ else b₁.raiseHigh n t.high
  let b₃ := b₂.comparePlan fill n t.planned
  if t.answerTo = 1 then b₃.noteTally n sender t.packed
  else if b₃.closing n then b₃.recordAnswer n (t.answer sender)
  else b₃

/-- The fields of a TALLY body from its characters. -/
def tallyOf (answerTo planned high packed free inProgress : Byte) (net : BitVec 24) : Tally :=
  { answerTo := answerTo.toNat, planned := planned.toNat, high := high.toNat, packed := packed.toNat,
    free := free.toNat, inProgress := inProgress.toNat, net := net.toNat }

/-- TALLY_FRAME (R39). -/
def execTallyFrame (sender : Sender) (invoice : BitVec 16) (answerTo planned high packed free inProgress : Byte)
    (net : BitVec 24) (s : State) : Host.Outcome State Fault Refusal :=
  .next (s.receive sender
    (.tally invoice.toNat (tallyOf answerTo planned high packed free inProgress net))
    (·.heardTally s.filling sender.number.toNat invoice.toNat
      (tallyOf answerTo planned high packed free inProgress net)))

/-! ### CLAIM (R58) -/

/-- The serials `first` to `first + count - 1` join the sent claim's yielded set where they lie in its range (R58). -/
def Invoice.yieldRange (r : Invoice) (first count : Nat) : Invoice :=
  (List.range' first count).foldl Invoice.yield r

/-- A CLAIM heard, in the order of R58: the high mark, the overlap with the free list and with the sent claim, the
sender and the planned count, the rewrite; then the claim check if the removal has emptied the list. -/
def Books.heardClaim (b : Books) (fill : Option Nat) (sender n planned first count : Nat) : Books :=
  let b₁ := b.modifyInvoice n (fun r =>
    (({ r with high := max r.high (first + count - 1) } : Invoice).giveUp first count).yieldRange first count)
  let b₂ := ((b₁.joinParticipants n sender).comparePlan fill n planned).rewriteClaim n
  if b.freeOf n ≠ [] && b₁.freeOf n = [] && fill = some n then b₂.claimCheck n else b₂

/-- CLAIM_FRAME (R58). -/
def execClaimFrame (sender : Sender) (invoice : BitVec 16) (planned first count : Byte) (s : State) :
    Host.Outcome State Fault Refusal :=
  .next (s.receive sender (.claim invoice.toNat planned.toNat first.toNat count.toNat)
    (·.heardClaim s.filling sender.number.toNat invoice.toNat planned.toNat first.toNat count.toNat))

/-! ### CHEST, VOID, SAMPLE, MARK, BIN (R33, R73, R75, R141 to R147) -/

/-- A CHEST heard: the draws lower the bins unless the frame repeats the sender's last one (R33, R75), and the Chest
Store is handed it (R141).  That the draws, with their BIN_LOW, come before the Chest Store's notices is the model's
choice: R19 and R75 set no order between the two hand-offs (log 41). -/
def Books.heardReport (b : Books) (fill : Option Nat) (sender n : Nat) (r : ChestReport) : Books :=
  let isRepeat := decide (b.repeat? sender = some ⟨n, r⟩)
  (if isRepeat then b else b.drawAll r.draws).heardChest fill sender n r isRepeat

/-- The body of a CHEST frame from its characters. -/
def reportOf (serial : Byte) (gross tare net : BitVec 16) (flags : Byte) (draws : List (Byte × BitVec 16)) :
    ChestReport :=
  { serial := serial.toNat, gross := gross.toNat, tare := tare.toNat, net := net.toNat, flags := flags.toNat,
    draws := draws.map (fun d => ⟨d.1.toNat, d.2.toNat⟩) }

/-- A CHEST with a draw count outside 1 to 4 is lost framing at B9 (R14; log 35). -/
def State.receiveReport (s : State) (q : Sender) (n : Nat) (r : ChestReport) : State :=
  if inside 1 4 r.draws.length then
    s.receive q (.chest n r) (·.heardReport s.filling q.number.toNat n r)
  else if s.follows (frameChars q.number.toNat (.chest n r)) then
    s.setLine { s.line.frameEnds stopSamples q.slots .none with lost := s.line.role = .receiver true }
  else s

/-- CHEST_FRAME (R141). -/
def execChestFrame (sender : Sender) (invoice : BitVec 16) (serial : Byte) (gross tare net : BitVec 16) (flags : Byte)
    (draws : List (Byte × BitVec 16)) (s : State) : Host.Outcome State Fault Refusal :=
  .next (s.receiveReport sender invoice.toNat (reportOf serial gross tare net flags draws))

/-- VOID_FRAME (R144). -/
def execVoidFrame (sender : Sender) (invoice : BitVec 16) (serial : Byte) (s : State) :
    Host.Outcome State Fault Refusal :=
  .next (s.receive sender (.void invoice.toNat serial.toNat)
    (·.heardVoid sender.number.toNat invoice.toNat serial.toNat))

/-- SAMPLE_FRAME (R146). -/
def execSampleFrame (sender : Sender) (invoice : BitVec 16) (serial : Byte) (weight : BitVec 16) (s : State) :
    Host.Outcome State Fault Refusal :=
  .next (s.receive sender (.sample invoice.toNat serial.toNat weight.toNat)
    (·.heardSample invoice.toNat serial.toNat weight.toNat))

/-- MARK_FRAME (R147). -/
def execMarkFrame (sender : Sender) (invoice : BitVec 16) (serial status : Byte) (s : State) :
    Host.Outcome State Fault Refusal :=
  .next (s.receive sender (.mark invoice.toNat serial.toNat status.toNat)
    (·.heardMark sender.number.toNat invoice.toNat serial.toNat status.toNat))

/-- BIN_FRAME (R73). -/
def execBinFrame (sender : Sender) (invoice : BitVec 16) (bin action : Byte) (batch quantity : BitVec 16) (s : State) :
    Host.Outcome State Fault Refusal :=
  .next (s.receive sender (.bin invoice.toNat bin.toNat action.toNat batch.toNat quantity.toNat)
    (·.binAction bin.toNat action.toNat batch.toNat quantity.toNat))

/-! ### CLOSE CALL (R152, R153) -/

/-- This station's own CLOSE CALL for the invoice is queued: it is removed, and CLOSE_YIELDED is raised (R152, R161). -/
def Books.yieldCall (b : Books) (n value : Nat) : Books :=
  if b.tx.any (TxEntry.isCallOf n) then
    (b.removeEntries none .apply (TxEntry.isCallOf n)).raiseNotice .closeYielded (some n) none (some value)
  else b

/-- A CLOSE CALL heard: an open record makes this station a peer (R152); in CLOSING and CLOSED it is answered alone
(R153). -/
def Books.heardCall (b : Books) (fill : Option Nat) (n packed : Nat) : Books :=
  match b.invoice? n with
  | none => b
  | some r =>
    match r.state with
    | .census | .active | .stale =>
      let b₁ := ((b.yieldCall n 1).enterClosing fill n .peer).queueTally n 2 (inProgressOf fill n)
      b₁.raiseNotice .closeCalled (some n) none (some packed)
    | .closing => b.queueTally n 2 (inProgressOf fill n)
    | .closed => b.queueTally n 2 0

/-- CLOSE_CALL_FRAME (R152). -/
def execCloseCallFrame (sender : Sender) (invoice : BitVec 16) (round packed planned : Byte) (s : State) :
    Host.Outcome State Fault Refusal :=
  .next (s.receive sender (.closeCall invoice.toNat round.toNat packed.toNat planned.toNat)
    (·.heardCall s.filling invoice.toNat packed.toNat))

/-! ### CLOSED (R161, R162) -/

/-- The figures of a CLOSED frame differ from this station's records (R161). -/
def Books.differs (b : Books) (r : Invoice) (packed missing net : Nat) : Bool :=
  packed ≠ b.packedCount r.number || missing ≠ (b.missing r.number r.planned).length
    || net ≠ ((b.packed r.number).map (·.net)).sum

/-- INVOICE_CLOSED is raised with the lot status, plus 8 on a difference (R161). -/
def Books.compareClosed (b : Books) (r : Invoice) (status packed missing net : Nat) : Books :=
  b.raiseNotice .invoiceClosed (some r.number) none
    (some (if b.differs r packed missing net then status + 8 else status))

/-- A CLOSED frame heard: a closer in CLOSING yields its round (R162, in its order; log 36); any other record not yet
CLOSED becomes a peer's (R161); a record in CLOSED is left. -/
def Books.heardClosed (b : Books) (fill : Option Nat) (n status packed missing net : Nat) : Books :=
  match b.invoice? n with
  | none => b
  | some r =>
    if r.state = .closed then b
    else if r.state = .closing && r.role = some .closer then
      (((b.dropRound n).enterClosed fill n .peer).compareClosed r status packed missing net).raiseNotice
        .closeYielded (some n) none (some 2)
    else ((b.yieldCall n 2).enterClosed fill n .peer).compareClosed r status packed missing net

/-- CLOSED_FRAME (R161). -/
def execClosedFrame (sender : Sender) (invoice : BitVec 16) (status packed missing : Byte) (net : BitVec 24) (s : State) :
    Host.Outcome State Fault Refusal :=
  .next (s.receive sender (.closed invoice.toNat status.toNat packed.toNat missing.toNat net.toNat)
    (·.heardClosed s.filling invoice.toNat status.toNat packed.toNat missing.toNat net.toNat))

end Sys2Proof.Machine
end

