-- ==== Sys2Proof/Machine/InvoiceCommands.lean ====
section
/-! DEFINITION. The invoice commands: OPEN, ABANDON, CLOSE and RELEASE INVOICE (03, 10). -/

namespace Sys2Proof.Machine

/-! ### OPEN INVOICE (R35, R36) -/

/-- The recipe components of OPEN INVOICE: the first `m` of its four entries. -/
def recipeOf (p : List Byte) : List Component :=
  ([27, 30, 33, 36].take (byteAt p 26)).map (fun i => { bin := byteAt p i, share := num2 p (i + 1) })

/-- The garden mark of OPEN INVOICE; bytes beyond its length are ignored. -/
def markOf (p : List Byte) : List Byte := (p.drop 3).take (min 8 (byteAt p 2))

/-- The grade of OPEN INVOICE; bytes beyond its length are ignored. -/
def gradeOf (p : List Byte) : List Byte := (p.drop 12).take (min 6 (byteAt p 11))

/-- The record OPEN INVOICE creates at station `station` (R36, R53). -/
def newInvoice (station : Nat) (p : List Byte) : Invoice where
  number := num2 p 0
  mark := markOf p
  grade := gradeOf p
  planned := byteAt p 18
  ceiling := byteAt p 18
  target := num2 p 19
  tolerance := byteAt p 21
  tareMin := num2 p 22
  tareMax := num2 p 24
  recipe := recipeOf p
  shareTolerance := byteAt p 39
  state := .census
  role := none
  view := .whole
  participants := [station]
  high := 0
  free := []
  full := false
  phase := .none
  recount := false
  tallies := []
  sent := none
  surrendered := 0

/-- Check 1 of R35: every number in its range, and the recipe and the texts of a lawful size. -/
def openInRange (p : List Byte) : Bool :=
  inside 1 9999 (num2 p 0) && inside 1 8 (byteAt p 2) && inside 1 6 (byteAt p 11) && inside 1 99 (byteAt p 18)
  && inside 500 10000 (num2 p 19) && inside 5 100 (byteAt p 21)
  && inside 100 1500 (num2 p 22) && inside 100 1500 (num2 p 24) && num2 p 22 ≤ num2 p 24
  && inside 1 4 (byteAt p 26)
  && (recipeOf p).all (fun c => inside 1 64 c.bin && inside 1 1000 c.share)
  && decide ((recipeOf p).map (·.bin)).Nodup && ((recipeOf p).map (·.share)).sum = 1000
  && byteAt p 39 ≤ 200

/-- The first check of R35 that fails; absent when OPEN INVOICE is taken. -/
def Books.openRefusal (b : Books) (p : List Byte) : Option Status :=
  if !openInRange p then some .range
  else if !((markOf p).all isGlyph && (gradeOf p).all isGlyph) then some .badText
  else if (recipeOf p).any (fun c => b.feederOf c.bin = 0) then some .noFeeder
  else if b.hasInvoice (num2 p 0) then some .duplicate
  else if 6 ≤ b.invoices.length then some .tableFull
  else none

/-- The record joins the table, and a CENSUS is queued for it (R36); no trace of an earlier one stays (R50). -/
def Books.openInvoice (b : Books) (p : List Byte) : Books :=
  ({ b with invoices := putBy (fun r => r.number) (newInvoice b.straps.station p) b.invoices,
            released := b.released.filter (fun n => n ≠ num2 p 0) } : Books).startCensus (num2 p 0)

/-- OPEN INVOICE past R174's first four checks. -/
def State.openBody (s : State) (p : List Byte) : State :=
  match s.books.openRefusal p with
  | some st => s.reply st []
  | none => (s.onBooks (·.openInvoice p)).reply .ok []

/-- OPEN INVOICE (R35, R36). -/
def execOpenInvoice (params : Params) (s : State) : Host.Outcome State Fault Refusal :=
  .next (s.hostCommand 0x10 params noData (fun t => t.openBody params.stated))

/-! ### ABANDON INVOICE (R48) -/

/-- The Fill Sequencer is in a step other than IDLE for a chest of the invoice; a chest whose record has been freed is none
of one opened again under the number (log 44). -/
def State.fillHolds (s : State) (n : Nat) : Bool :=
  s.filler.step ≠ .idle && s.filler.fill.any (fun f => f.held = some n)

/-- A REMARK mark runs on a record of the invoice. -/
def State.remarkHolds (s : State) (n : Nat) : Bool :=
  s.marker.job.any (fun j => j.requester = .remark && j.invoice = n)

/-- The refusal of ABANDON INVOICE, if any (R48). -/
def State.abandonRefusal (s : State) (n : Nat) : Option Status :=
  if !(s.books.invoice? n).any (fun r => r.state ≠ .closed) then some .notActive
  else if s.fillHolds n || s.remarkHolds n then some .busy
  else none

/-- A record leaves the table with its serial state. -/
def Books.dropInvoice (b : Books) (n : Nat) : Books :=
  { b with invoices := b.invoices.filter (fun r => r.number ≠ n) }

/-- The record is freed without telling the shed (R48): its CLAIM, CENSUS, CLOSE CALL and TALLY entries leave
unapplied, and its chest records and its round go. -/
def Books.abandon (b : Books) (n : Nat) : Books :=
  let b₁ := b.removeEntries none .discard (fun e => e.isClaimOf n || e.isCensusOf n || e.isCallOf n || e.isTallyOf n)
  ((b₁.dropChests (fun c => c.invoice = n)).dropRound n).dropInvoice n

/-- ABANDON INVOICE past R174's first four checks. -/
def State.abandonBody (s : State) (n : Nat) : State :=
  match s.abandonRefusal n with
  | some st => s.reply st []
  | none => (s.onBooks (·.abandon n)).reply .ok []

/-- ABANDON INVOICE (R48). -/
def execAbandonInvoice (params : Params) (s : State) : Host.Outcome State Fault Refusal :=
  .next (s.hostCommand 0x11 params noData (fun t => t.abandonBody (num2 params.stated 0)))

/-! ### CLOSE INVOICE (R150) -/

/-- The first check of R150 that fails. -/
def State.closeRefusal (s : State) (n : Nat) : Option Status :=
  match s.books.invoice? n with
  | none => some .notActive
  | some r =>
    if r.state ≠ .active then some .notActive
    else if r.view ≠ .whole then some .partialView
    else if s.filling = some n then some .busy
    else if s.books.tx.any (TxEntry.isCallOf n) then some .busy
    else none

/-- A CLOSE CALL of a round is queued, with the packed count of the moment and the planned count (R150). -/
def Books.callClose (b : Books) (fill : Option Nat) (n : Nat) : Books :=
  match b.invoice? n with
  | none => b
  | some r => b.queueFrame fill (.closeCall n 1 (b.packedCount n) r.planned)

/-- CLOSE INVOICE past R174's first four checks. -/
def State.closeBody (s : State) (n : Nat) : State :=
  match s.closeRefusal n with
  | some st => s.reply st []
  | none => (s.onBooks (·.callClose s.filling n)).reply .ok []

/-- CLOSE INVOICE (R150). -/
def execCloseInvoice (params : Params) (s : State) : Host.Outcome State Fault Refusal :=
  .next (s.hostCommand 0x12 params noData (fun t => t.closeBody (num2 params.stated 0)))

/-! ### RELEASE INVOICE (R49) -/

/-- An invoice's lot sheet is freed, and that it was is remembered (R49; log 43). -/
def Books.freeSheet (b : Books) (n : Nat) : Books :=
  if b.sheets.any (fun l => l.invoice = n) then
    { b with sheets := b.sheets.filter (fun l => l.invoice ≠ n), released := insertAsc n b.released }
  else b

/-- A CLOSED record is freed, with its chest records and its lot sheet (R49); a CLAIM whose attempt outlasts the record
will not be applied to one opened again under the number (R50, R57). -/
def Books.release (b : Books) (n : Nat) : Books :=
  let b₀ := b.removeEntries none .discard (fun e => e.underWay && e.isClaimOf n)
  ((b₀.dropChests (fun c => c.invoice = n)).freeSheet n).dropInvoice n

/-- The chest in progress as the record of invoice `n` is freed (R115, R139). -/
def Fill.loseRecord (f : Fill) (n : Nat) : Fill := { f with freed := f.freed || f.invoice = n }

/-- RELEASE INVOICE past R174's first four checks.  A fill for the invoice runs on, without its record (R139). -/
def State.releaseBody (s : State) (n : Nat) : State :=
  if (s.books.invoice? n).any (fun r => r.state = .closed) then
    ((s.onBooks (·.release n)).modifyFill (·.loseRecord n)).reply .ok []
  else s.reply .notClosed []

/-- RELEASE INVOICE (R49). -/
def execReleaseInvoice (params : Params) (s : State) : Host.Outcome State Fault Refusal :=
  .next (s.hostCommand 0x13 params noData (fun t => t.releaseBody (num2 params.stated 0)))

end Sys2Proof.Machine
end

