-- ==== Sys2Proof/Machine/Reads.lean ====
section
/-! DEFINITION. The reads: READ INVOICE, READ CHEST, READ BIN, READ LOT SHEET, READ NOTICE, READ FAULT, ACK FAULT and
READ STATUS, with the layouts of their responses (12, Response data).  Bytes the layouts place but give no value are
free, 64 indices set aside for each response (log 19); list entries beyond a list are 0 (log 20). -/

namespace Sys2Proof.Machine

/-- A response whose layout holds bytes without a value: their indices are spent (log 19). -/
def State.replySpending (s : State) (data : List Byte) : State := (s.reply .ok data).spend 64

/-- The entry of a list with the lowest key. -/
def lowestBy {α : Type} (key : α → Nat) : List α → Option α
  | [] => none
  | x :: l =>
    match lowestBy key l with
    | none => some x
    | some y => if key y < key x then some y else some x

/-! ### READ INVOICE (R51) -/

/-- A recipe in the four entries of OPEN INVOICE's layout, unused entries 0. -/
def recipeBytes (recipe : List Component) : List Byte :=
  be1 recipe.length ++ recipe.flatMap (fun c => be1 c.bin ++ be2 c.share)
    ++ List.replicate (3 * (4 - recipe.length)) 0

/-- The OPEN INVOICE fields of a record, as OPEN INVOICE lays them out (40 bytes); text padding is free from `n`. -/
def Invoice.openFields (r : Invoice) (n : Nat) : List Byte :=
  be2 r.number ++ textField 8 n r.mark ++ textField 6 (n + 8) r.grade ++ be1 r.planned ++ be2 r.target
    ++ be1 r.tolerance ++ be2 r.tareMin ++ be2 r.tareMax ++ recipeBytes r.recipe ++ be1 r.shareTolerance

/-- The sent claim's fields: first serial or 0, count, yielded count and eight serials.  That the yielded count is 0 without
a sent claim is the model's choice (log 53). -/
def SentClaim.bytes : Option SentClaim → List Byte
  | none => be1 0 ++ be1 0 ++ be1 0 ++ beList 8 []
  | some c => be1 c.first ++ be1 c.count ++ be1 c.yielded.length ++ beList 8 c.yielded

/-- The data of READ INVOICE (R51). -/
def Books.invoiceData (b : Books) (r : Invoice) (n : Nat) : List Byte :=
  r.openFields n ++ be1 r.ceiling ++ be1 r.state.num ++ be1 (CloseRole.num r.role) ++ be1 r.view.num
    ++ be1 r.phase.num ++ beFlag r.recount ++ beFlag r.full ++ be1 r.high ++ be1 (b.packedCount r.number)
    ++ be1 (b.ownPackedCount r.number) ++ be1 r.free.length ++ beList 16 r.free ++ SentClaim.bytes r.sent
    ++ be1 r.surrendered ++ be1 r.participants.length ++ beList 31 r.participants

/-- READ INVOICE past R174's first four checks. -/
def State.readInvoiceBody (s : State) (n : Nat) : State :=
  match s.books.invoice? n with
  | none => s.reply .notActive []
  | some r => s.replySpending (s.books.invoiceData r s.spare)

/-- READ INVOICE (R51). -/
def execReadInvoice (params : Params) (s : State) : Host.Outcome State Fault Refusal :=
  .next (s.hostCommand 0x40 params noData (fun t => t.readInvoiceBody (num2 params.stated 0)))

/-! ### READ CHEST (R148) -/

/-- The PACKED record of an invoice with the lowest serial at or above `k` (R148). -/
def Books.packedFrom (b : Books) (n k : Nat) : Option Chest :=
  lowestBy (fun c => c.serial?.getD 0) (b.chests.filter (fun c => c.invoice = n && c.serial?.any (fun x => k ≤ x)))

/-- The ORPHAN record of an invoice with the lowest reservation number at or above `k` (R148). -/
def Books.orphanFrom (b : Books) (n k : Nat) : Option Chest :=
  lowestBy (fun c => c.orphan?.getD 0) (b.chests.filter (fun c => c.invoice = n && c.orphan?.any (fun x => k ≤ x)))

/-- The draws of a record in four entries, unused ones 0. -/
def drawBytes (ds : List Draw) : List Byte :=
  be1 ds.length ++ ds.flatMap Draw.bytes ++ List.replicate (3 * (4 - ds.length)) 0

/-- The data of READ CHEST (R148). -/
def Chest.data (c : Chest) : List Byte :=
  be2 c.invoice ++ beOpt1 c.serial? ++ beOpt1 c.orphan? ++ be1 c.station
    ++ be1 (match c.origin with | .own => 1 | .heard => 2)
    ++ be1 (if c.serial?.isSome then 1 else 2)
    ++ be2 c.gross ++ be2 c.tare ++ be2 c.net ++ beOpt1 c.sample ++ beFlag c.offBlend ++ be1 c.mark.num
    ++ beOpt1 c.conflict ++ drawBytes c.draws

/-- READ CHEST past R174's first four checks. -/
def State.readChestBody (s : State) (n selector k : Nat) : State :=
  if !(selector = 1 && inside 1 99 k || selector = 2 && inside 1 255 k) then s.reply .range []
  else if !s.books.hasInvoice n then s.reply .notActive []
  else
    match if selector = 1 then s.books.packedFrom n k else s.books.orphanFrom n k with
    | none => s.reply .notPresent []
    | some c => s.reply .ok c.data

/-- READ CHEST (R148). -/
def execReadChest (params : Params) (s : State) : Host.Outcome State Fault Refusal :=
  .next (s.hostCommand 0x41 params noData
    (fun t => t.readChestBody (num2 params.stated 0) (byteAt params.stated 2) (byteAt params.stated 3)))

/-! ### READ BIN (R84) -/

/-- A two-byte value that is absent, and whose range holds 0: free bytes from `n` (log 19). -/
def beFree2 (n : Nat) (v : Option Nat) : List Byte :=
  match v with
  | some v => be2 v
  | none => freeBytes n 2

/-- The data of READ BIN (R84): batch code and remaining are marked absent by state UNKNOWN. -/
def Books.binData (b : Books) (n k : Nat) : List Byte :=
  be1 (b.bin n).state.num ++ beFree2 k (b.bin n).batch ++ beFree2 (k + 2) (b.bin n).remaining
    ++ be2 (b.bin n).overdraw ++ be1 (b.feederOf n)

/-- READ BIN past R174's first four checks. -/
def State.readBinBody (s : State) (n : Nat) : State :=
  if inside 1 64 n then s.replySpending (s.books.binData n s.spare) else s.reply .range []

/-- READ BIN (R84). -/
def execReadBin (params : Params) (s : State) : Host.Outcome State Fault Refusal :=
  .next (s.hostCommand 0x42 params noData (fun t => t.readBinBody (byteAt params.stated 0)))

/-! ### READ LOT SHEET (R163) -/

/-- The data of part HEADER; text padding is free from `n`. -/
def LotSheet.header (l : LotSheet) (n : Nat) : List Byte :=
  be2 l.invoice ++ textField 8 n l.mark ++ textField 6 (n + 8) l.grade ++ be1 l.planned ++ be1 l.packed
    ++ be1 l.status.num ++ be3 l.gross ++ be3 l.tare ++ be3 l.net ++ be3 l.samples ++ be3 (l.net - l.samples)
    ++ be1 l.offBlend ++ be1 l.unmarked ++ be1 l.conflicts ++ beFlag l.closerInProgress ++ be2 l.reportedPacked
    ++ be4 l.reportedNet ++ be2 l.reportedSurrendered ++ be1 l.missing.length ++ be1 l.unconfirmed.length
    ++ be1 l.inProgress.length

/-- A list as its count and its entries. -/
def countedList (l : List Nat) : List Byte := be1 l.length ++ l.map (BitVec.ofNat 8)

/-- The data of part LINE (R160). -/
def LotLine.data (x : LotLine) : List Byte :=
  be1 x.serial ++ be1 x.station ++ be2 x.gross ++ be2 x.tare ++ be2 x.net ++ beOpt1 x.sample
    ++ be1 ((if x.offBlend then 1 else 0) + (if x.unmarked then 2 else 0) + (if x.conflict.isSome then 4 else 0))
    ++ beOpt1 x.conflict

/-- A part of a lot sheet that is held. -/
def State.readSheet (s : State) (l : LotSheet) (part line : Nat) : State :=
  match part with
  | 1 => s.replySpending (l.header s.spare)
  | 2 => s.reply .ok (countedList l.missing)
  | 3 => s.reply .ok (countedList l.unconfirmed ++ countedList l.inProgress)
  | 4 =>
    if line = 0 then s.reply .range []
    else
      match l.lines[line - 1]? with
      | some x => s.reply .ok x.data
      | none => s.reply .range []
  | _ => s.reply .range []

/-- READ LOT SHEET past R174's first four checks (R163); NO_LOT once RELEASE INVOICE has freed the lot sheet (R49). -/
def State.readLotBody (s : State) (n part line : Nat) : State :=
  if !s.books.hasInvoice n then s.reply (if s.books.released.contains n then .noLot else .notActive) []
  else
    match s.books.sheet? n with
    | none => s.reply .noLot []
    | some l => s.readSheet l part line

/-- READ LOT SHEET (R163). -/
def execReadLotSheet (params : Params) (s : State) : Host.Outcome State Fault Refusal :=
  .next (s.hostCommand 0x43 params noData
    (fun t => t.readLotBody (num2 params.stated 0) (byteAt params.stated 2) (byteAt params.stated 3)))

/-! ### READ NOTICE (R178) -/

/-- The data of READ NOTICE for a notice taken out with `left` behind it; an absent value is free from `n`. -/
def Notice.data (x : Notice) (left n : Nat) : List Byte :=
  be1 x.kind.num ++ be4 x.time.toNat ++ be2 (x.invoice.getD 0) ++ beOpt1 x.serial ++ beFlag x.value.isSome
    ++ beFree2 n x.value ++ be1 left

/-- The data of READ NOTICE on an empty queue: kind NONE and count 0; the time is free from `n`. -/
def noNotice (n : Nat) : List Byte :=
  be1 0 ++ freeBytes n 4 ++ be2 0 ++ be1 0 ++ beFlag false ++ beFree2 (n + 4) none ++ be1 0

/-- The oldest notice leaves (R178); fewer than 32 left clears the cause of NOTICE_OVERFLOW. -/
def Books.takeNotice (b : Books) : Books :=
  let b' := { b with notices := b.notices.drop 1 }
  if b'.notices.length < 32 then b'.clearCause .noticeOverflow else b'

/-- READ NOTICE past R174's first four checks. -/
def State.readNoticeBody (s : State) : State :=
  match s.books.notices with
  | [] => s.replySpending (noNotice s.spare)
  | x :: l => (s.onBooks Books.takeNotice).replySpending (x.data l.length s.spare)

/-- READ NOTICE (R178). -/
def execReadNotice (params : Params) (s : State) : Host.Outcome State Fault Refusal :=
  .next (s.hostCommand 0x44 params noData State.readNoticeBody)

/-! ### READ FAULT and ACK FAULT (R167, R168) -/

/-- The data of READ FAULT for an entry. -/
def FaultEntry.data (e : FaultEntry) (entries : Nat) : List Byte :=
  be1 e.code.num ++ be1 e.count ++ be1 e.cause.num ++ be4 e.first.toNat ++ be4 e.latest.toNat ++ be1 entries

/-- The data of READ FAULT when no entry lies at or above the from code: code 0; both times are free from `n`. -/
def noFault (entries n : Nat) : List Byte := be1 0 ++ be1 0 ++ be1 0 ++ freeBytes n 8 ++ be1 entries

/-- The entry with the lowest code at or above `k` (R167). -/
def Books.faultFrom (b : Books) (k : Nat) : Option FaultEntry :=
  lowestBy (fun e => e.code.num) (b.faults.filter (fun e => k ≤ e.code.num))

/-- READ FAULT past R174's first four checks. -/
def State.readFaultBody (s : State) (k : Nat) : State :=
  match s.books.faultFrom k with
  | some e => s.reply .ok (e.data s.books.faults.length)
  | none => s.replySpending (noFault s.books.faults.length s.spare)

/-- READ FAULT (R167). -/
def execReadFault (params : Params) (s : State) : Host.Outcome State Fault Refusal :=
  .next (s.hostCommand 0x45 params noData (fun t => t.readFaultBody (byteAt params.stated 0)))

/-- The station state, which every response of ACK FAULT carries (R168; log 18). -/
def stationData (s : State) : List Byte := be1 s.books.station.num

/-- A response that carries the station state as it stands. -/
def State.replyStation (s : State) (st : Status) : State := s.reply st (stationData s)

/-- ACK FAULT past R174's first four checks (R168, R170). -/
def State.ackBody (s : State) (k : Nat) : State :=
  match (FaultCode.ofNum k).bind s.books.fault? with
  | none => s.replyStation .notPresent
  | some e =>
    match e.cause with
    | .present => s.replyStation .causePresent
    | .cleared =>
      let t := s.onBooks (·.dropFault e.code)
      (if e.code.halts then t.returnOnline else t).replyStation .ok

/-- ACK FAULT (R168). -/
def execAckFault (params : Params) (s : State) : Host.Outcome State Fault Refusal :=
  .next (s.hostCommand 0x46 params stationData (fun t => t.ackBody (byteAt params.stated 0)))

/-! ### READ STATUS (R180) -/

/-- Part STATION. -/
def State.stationPart (s : State) : List Byte :=
  be1 s.books.station.num ++ beFlag s.books.onlineWait ++ be1 s.books.straps.station ++ be1 s.books.straps.rate
    ++ be4 s.books.time.toNat ++ be1 s.line.level.num ++ be1 s.books.tx.length ++ be1 s.books.notices.length
    ++ be1 s.books.faults.length ++ be2 s.books.freeSlots

/-- Part FILL.  A HOLD level of 1 is HOLD active: the model's choice (log 46). -/
def State.fillPart (s : State) : List Byte :=
  be1 s.filler.step.num ++ be1 s.filler.step.index ++ be2 ((s.filler.fill.map (·.invoice)).getD 0)
    ++ beOpt1 (s.filler.fill.map (·.reservation)) ++ beFlag s.pins.hold ++ beFlag s.filler.remembered
    ++ s.filler.inflight.toList.flatMap be2

/-- Part WEIGH; before CONFIGURE there is no zero, and its bytes are free from `n`. -/
def State.weighPart (s : State) (n : Nat) : List Byte :=
  beFlag s.weigh.reading.isSome ++ beSigned3 ((s.weigh.reading.map (·.weight)).getD 0)
    ++ beFlag (s.weigh.reading.any (·.isOver)) ++ beFlag s.weigh.steady
    ++ be1 ((s.weigh.request.map (·.who.num)).getD 0)
    ++ (match s.weigh.scale with
      | some sc => beSigned3 sc.zero
      | none => freeBytes n 3)

/-- Part MARK; without a job the defect mark, and before the first SHIFT is done the ready set, are free from `n`. -/
def State.markPart (s : State) (n : Nat) : List Byte :=
  match s.marker.job with
  | none =>
    be1 s.marker.chain.num ++ be1 0 ++ be2 0 ++ be1 0 ++ be1 0 ++ be1 0 ++ freeBytes n 5
  | some j =>
    be1 s.marker.chain.num ++ be1 (match j.requester with | .fill => 1 | .remark => 2) ++ be2 j.invoice
      ++ be1 j.serial ++ be1 j.position ++ be1 j.positions ++ beFlag j.defect
      ++ (match j.ready with
        | some ready => be4 ready.toNat
        | none => freeBytes n 4)

/-- The phase of a round on the port. -/
def RoundPhase.num : RoundPhase → Nat
  | .window _ => 1 | .callQueued => 2 | .extension _ => 3

/-- The remaining time of a phase at station time `now`; 0 in phase CALL QUEUED (R180). -/
def RoundPhase.remaining (now : Time) : RoundPhase → Nat
  | .window ends | .extension ends => msUntil ends now
  | .callQueued => 0

/-- Part CLOSE. -/
def Round.data (d : Round) (now : Time) : List Byte :=
  be1 d.number ++ be1 d.phase.num ++ be2 (d.phase.remaining now) ++ be1 d.extensions ++ be1 d.answers.length

/-- READ STATUS past R174's first four checks. -/
def State.readStatusBody (s : State) (part n : Nat) : State :=
  match part with
  | 1 => s.reply .ok s.stationPart
  | 2 => s.reply .ok s.fillPart
  | 3 => s.replySpending (s.weighPart s.spare)
  | 4 => s.replySpending (s.markPart s.spare)
  | 5 =>
    if !s.books.hasInvoice n then s.reply .notActive []
    else
      match s.books.round? n with
      | none => s.reply .notPresent []
      | some d => s.reply .ok (d.data s.books.time)
  | _ => s.reply .range []

/-- READ STATUS (R180). -/
def execReadStatus (params : Params) (s : State) : Host.Outcome State Fault Refusal :=
  .next (s.hostCommand 0x47 params noData (fun t => t.readStatusBody (byteAt params.stated 0) (num2 params.stated 1)))

end Sys2Proof.Machine
end

