-- ==== Sys2Proof/Machine/Setup.lean ====
section
/-! DEFINITION. Commands and events of the port and of reset: CONFIGURE, GO ONLINE, RESET STATION, unknown and discarded
transactions, READ RESPONSE, the response becoming ready, and the two ends of reset (12). -/

namespace Sys2Proof.Machine

/-! ### CONFIGURE (R176) -/

/-- The feeder whose five bytes start at index `i`; unused when its bin byte is 0 (R176). -/
def feederAt (p : List Byte) (i : Nat) : Option Feeder :=
  if byteAt p i = 0 then none
  else some { bin := byteAt p i, fineBand := num2 p (i + 1), initial := num2 p (i + 3) }

/-- The in-flight value that a feeder starts with (R100): its initial one, or 0 when it is unused. -/
def inflightAt (p : List Byte) (i : Nat) : Nat := ((feederAt p i).map (·.initial)).getD 0

/-- The four feeders of a CONFIGURE. -/
def feedersOf (p : List Byte) : Vector (Option Feeder) 4 :=
  #v[feederAt p 16, feederAt p 21, feederAt p 26, feederAt p 31]

/-- The scale values of a CONFIGURE. -/
def scaleOf (p : List Byte) : Scale :=
  { window := byteAt p 3, c10 := num3 p 4, zero := signed3 p 7, capacity := num2 p 10, motion := byteAt p 12,
    settle := num2 p 13 }

/-- The scale values lie in their ranges (R86, R176). -/
def Scale.valid (sc : Scale) : Bool :=
  (sc.window = 4 || sc.window = 8 || sc.window = 16) && inside 10000 2000000 sc.c10
  && -8388591 ≤ sc.zero && sc.zero ≤ 8388591 && inside 1000 30000 sc.capacity && inside 1 50 sc.motion
  && inside 100 2000 sc.settle && sc.settle % 50 = 0

/-- A used feeder's values lie in their ranges (R176). -/
def Feeder.valid (f : Feeder) : Bool := inside 1 64 f.bin && f.fineBand ≤ 1000 && f.initial ≤ 300

/-- A configuration breaks none of the checks of R176. -/
def configValid (p : List Byte) : Bool :=
  let used := (feedersOf p).toList.filterMap id
  inside 1 8 (byteAt p 0) && num2 p 1 ≤ 5000 && (scaleOf p).valid && byteAt p 15 ≤ 7
  && used.all Feeder.valid && (used.map (·.bin)).Nodup

/-- The head settings of the head byte; absent when no head is present (R126, R176). -/
def headOf (byte : Nat) : Option Head :=
  if byte.testBit 0 then some { nozzle32First := byte.testBit 1, activeLow := byte.testBit 2 } else none

/-- The Marking Engine's part of CONFIGURE: with a head, the latch is cleared once (R125). -/
def Marker.configure (m : Marker) (h : Option Head) : Marker :=
  if h.isSome then ({ m with head := h } : Marker).clearLatch else { m with head := none }

/-- A valid configuration goes to its owners, and the station goes CONFIGURED (R176). -/
def State.configureWith (s : State) (p : List Byte) : State :=
  { s with
    books := { s.books with
      station := .configured, settings := some { blockSize := byteAt p 0, lowThreshold := num2 p 1 },
      feeders := feedersOf p },
    weigh := { Weigh.reset with scale := some (scaleOf p), lastGood := some s.books.time },
    filler := { s.filler with inflight := #v[inflightAt p 16, inflightAt p 21, inflightAt p 26, inflightAt p 31] },
    marker := s.marker.configure (headOf (byteAt p 15)) }

/-- CONFIGURE past R174's first four checks. -/
def State.configureBody (s : State) (p : List Byte) : State :=
  if configValid p then (s.configureWith p).reply .ok [] else s.reply .badConfig []

/-- CONFIGURE (R176). -/
def execConfigure (params : Params) (s : State) : Host.Outcome State Fault Refusal :=
  .next (s.hostCommand 0x01 params noData (fun t => t.configureBody params.stated))

/-! ### GO ONLINE (R22, R177) -/

/-- GO ONLINE past R174's first four checks. -/
def State.goOnlineBody (s : State) : State :=
  if s.books.onlineWait then s.reply .busy []
  else if s.line.level = .idle then s.goOnline.reply .ok (be1 1)
  else (s.setBooks { s.books with onlineWait := true }).reply .ok (be1 0)

/-- GO ONLINE (R177). -/
def execGoOnline (params : Params) (s : State) : Host.Outcome State Fault Refusal :=
  .next (s.hostCommand 0x02 params noData State.goOnlineBody)

/-! ### Reset (R175) -/

/-- Reset begins: every block returns to its values after reset, every output is off, and the port shows BUSY until
reset has ended.  The waiting commands, the input levels and the head's own path and latch are outside the part
(log 6, 28). -/
def State.enterReset (s : State) : State :=
  { State.reset with
    pending := s.pending, inReset := true, pins := s.pins,
    books := { Books.reset with straps := s.books.straps },
    marker := { Marker.reset with
      path := s.marker.cutShift.path, latch := s.marker.latch, unknown := s.marker.cutShift.unknown },
    port := { Port.reset with busy := true, miso := s.port.miso }, spare := s.spare }

/-- RESET STATION (R175): acted on at the rising edge of chip select, with no response. -/
def execResetStation (params : Params) (s : State) : Host.Outcome State Fault Refusal :=
  .next (s.hostCommand 0x7F params noData State.enterReset)

/-- The RESET pin is pulled, or power comes on (R175). -/
def execReset (s : State) : Host.Outcome State Fault Refusal := .next s.enterReset

/-- The straps are invalid (R175): station number 0, or rate code 3, or both. -/
def Straps.invalid (k : Straps) : Bool := k.station = 0 || k.rate = 3

/-- Reset ends (R175, R165, R103): the straps are read and held, invalid ones put the station OFFLINE with
STRAP_INVALID, and the remembered CHEST level takes the input's. -/
def State.leaveReset (s : State) (k : Straps) : State :=
  let t := { s with
    inReset := false, books := { s.books with straps := k }, filler := { s.filler with remembered := s.pins.chest },
    port := { s.port with busy := false } }
  if k.invalid then t.raiseOffline .strapInvalid else t

/-- RESET_END (R175). -/
def execResetEnd (station : BitVec 5) (rate : BitVec 2) (s : State) : Host.Outcome State Fault Refusal :=
  .next (if s.inReset then s.leaveReset { station := station.toNat, rate := rate.toNat } else s)

/-! ### Other transactions (R172 to R174) -/

/-- A command whose code is none of the layout table (R174).  Code FFh and the table's codes are other rows. -/
def execUnknownCommand (code : Byte) (params : Params) (s : State) : Host.Outcome State Fault Refusal :=
  .next (if (layoutLength code).isSome || code = 0xFF then s else s.hostCommand code params noData id)

/-- The whole bytes that arrived fall short of the code, the length byte and the parameters it states (R172). -/
def fallsShort (bytes : List Byte) : Bool := bytes.length < 2 || bytes.length < 2 + byteAt bytes 1

/-- COMMAND_DISCARDED (R172): a command transaction begun while BUSY, short, or broken off within a byte changes
nothing but what MISO returned. -/
def execCommandDiscarded (bytes : List Byte) (midByte : Bool) (s : State) : Host.Outcome State Fault Refusal :=
  .next (if bytes.head? ≠ some 0xFF && (s.port.busy || midByte || fallsShort bytes)
    then s.transact (s.misoOf bytes.length) else s)

/-- The bytes of a READ RESPONSE transaction: the port byte, the response, and free bytes when more are clocked
(R173; log 19). -/
def State.readResponse (s : State) (clocked : Nat) : State :=
  let whole := s.portByte :: s.responseBytes
  (s.transact ((whole ++ freeBytes s.spare (clocked - whole.length)).take clocked)).spend (clocked - whole.length)

/-- READ_RESPONSE (R173). -/
def execReadResponse (clocked : Nat) (s : State) : Host.Outcome State Fault Refusal := .next (s.readResponse clocked)

/-- RESPONSE_READY (R173). -/
def execResponseReady (s : State) : Host.Outcome State Fault Refusal := .next (s.setPort s.port.ripen)

end Sys2Proof.Machine
end

