-- ==== Sys2Proof/Machine/Timers.lean ====
section
/-! DEFINITION. The timed moments: good samples, sample loss, settles, no flow, the reject and firing pulses, and the
ends of the census window, the close window and the extension (03, 06, 07, 08, 10). -/

namespace Sys2Proof.Machine

/-! ### Good samples (R89 to R95) -/

/-- The window with a new sample as its newest entry: the last `w` of them (R89). -/
def pushSample (w : Nat) (l : List Sample) (x : Sample) : List Sample := (l ++ [x]).drop (l.length + 1 - w)

/-- The saturation run start after a good sample at `now` (R90). -/
def runStart (now : Time) (saturated : Bool) (start : Option Time) : Option Time :=
  if saturated then some (start.getD now) else none

/-- The Weigh Channel takes the held word at `now` (R88 to R95): the window, the loss time, the saturation run, the
reading, steadiness, and the settle timer, which an unsteady reading sets to 0. -/
def Weigh.takeSample (w : Weigh) (sc : Scale) (count : Int) (now : Time) : Weigh :=
  let sat := saturatedCount count
  let window := pushSample sc.window w.window ⟨count, sat⟩
  { w with
    holding := none, window := window, lastGood := some now, lossFound := false,
    saturatedSince := runStart now sat w.saturatedSince,
    saturationRaised := sat && w.saturationRaised,
    reading := sc.readingOf window, steady := sc.steadyOf window,
    timer := if sc.steadyOf window then w.timer else 0 }

/-- The causes that a good sample clears (R90, R91). -/
def Books.sampleSeen (b : Books) (saturated : Bool) : Books :=
  let b' := b.clearCause .sampleLoss
  if saturated then b' else b'.clearCause .scaleSaturated

/-- The held word is taken as a good sample: a reading update, which the Fill Sequencer sees, and SCALE_SATURATED at
the first sample that meets its condition in ONLINE or HALT (R89, R90). -/
def State.goodSample (s : State) : State :=
  match s.weigh.scale, s.weigh.holding with
  | some sc, some h =>
    let t := ((s.setWeigh (s.weigh.takeSample sc h.count s.books.time)).onBooks
      (·.sampleSeen (saturatedCount h.count))).readingUpdate
    if saturatedCount h.count && t.books.station.onLine then t.raiseSaturation else t
  | _, _ => s

/-- GOOD_SAMPLE (R89), 1 ms after the held word's completion. -/
def execGoodSample (s : State) : Host.Outcome State Fault Refusal := .next (s.atMoment s.goodSampleIn State.goodSample)

/-- What sample loss does to the Weigh Channel (R91, R94). -/
def Weigh.lose (w : Weigh) : Weigh :=
  { w with window := [], reading := none, steady := false, saturatedSince := none, saturationRaised := false,
           lossFound := true, timer := 0 }

/-- Sample loss is found (R91); in ONLINE and HALT, SAMPLE_LOSS is raised. -/
def State.loseSamples (s : State) : State :=
  let t := s.setWeigh s.weigh.lose
  if t.books.station.onLine then t.raiseHalting .sampleLoss else t

/-- SAMPLE_LOSS (R91). -/
def execSampleLoss (s : State) : Host.Outcome State Fault Refusal := .next (s.atMoment s.sampleLossIn State.loseSamples)

/-! ### Settles (R95 to R98) -/

/-- The zero replaced (R97, R98). -/
def State.setZero (s : State) (zero : Int) : State :=
  s.setWeigh { s.weigh with scale := s.weigh.scale.map (fun sc => { sc with zero := zero }) }

/-- A zero capture completes (R97): CAPTURED, or DRIFT with ZERO_DRIFT; the Fill Sequencer goes IDLE (R119). -/
def State.captureSettled (s : State) (r : Reading) : State :=
  (if r.inZeroBand then s.setZero r.mean else s.onBooks (·.raiseFault .zeroDrift)).goIdle

/-- ZERO SCALE completes (R98). -/
def State.zeroSettled (s : State) (r : Reading) : State :=
  if r.inZeroBand then (s.setZero r.mean).reply .ok (beSigned3 r.mean ++ beSigned3 r.weight)
  else (s.onBooks (·.raiseFault .zeroDrift)).reply .range (beSigned3 r.weight)

/-- A settled reading for the fill, by the step that waits for it (R104, R108, R111). -/
def State.fillSettled (s : State) (r : Reading) : State :=
  match s.filler.step with
  | .tare => s.tareSettled r
  | .settle k => s.componentSettled k r
  | .topup => s.topupSettled r
  | .idle | .armed | .feed _ | .check | .accept | .reject | .mark | .clear => s

/-- The settled reading handed to its requester. -/
def State.handSettled (s : State) (who : Requester) (r : Reading) : State :=
  match who with
  | .fill => s.fillSettled r
  | .capture => s.captureSettled r
  | .zeroScale => s.zeroSettled r

/-- A settle completes (R95): the request becomes absent, SETTLE_SLOW's cause clears (R96), and the reading as it
stands goes to the requester. -/
def State.completeSettle (s : State) : State :=
  match s.weigh.request, s.weigh.reading with
  | some q, some r => (s.withdrawRequest.onBooks (·.clearCause .settleSlow)).handSettled q.who r
  | _, _ => s

/-- SETTLE_COMPLETE (R95). -/
def execSettleComplete (s : State) : Host.Outcome State Fault Refusal :=
  .next (s.atMoment s.settleIn State.completeSettle)

/-- SETTLE_SLOW is raised, once for the request (R96). -/
def State.settleSlow (s : State) : State :=
  (s.setWeigh { s.weigh with request := s.weigh.request.map (fun q => { q with slow := true }) }).onBooks
    (·.raiseFault .settleSlow)

/-- SETTLE_SLOW (R96). -/
def execSettleSlow (s : State) : Host.Outcome State Fault Refusal := .next (s.atMoment s.settleSlowIn State.settleSlow)

/-- ZERO_SCALE_TIMEOUT (R98): the request is withdrawn, and the response is NOT_STEADY. -/
def execZeroScaleTimeout (s : State) : Host.Outcome State Fault Refusal :=
  .next (s.atMoment s.zeroScaleIn (fun t => t.withdrawRequest.reply .notSteady []))

/-! ### No flow (R78, R106, R111) -/

/-- A component's bin is marked EMPTY at once, and a BIN EMPTY frame is queued with its batch code (R78). -/
def Books.noFlowBin (b : Books) (n : Nat) : Books :=
  let b' := b.emptyBin n 0
  b'.queueFrame none (.bin 0 n 2 ((b'.bin n).batch.getD 0) 0)

/-- The short mark of component `k` is set, and its bin is marked EMPTY (R106). -/
def State.markShort (s : State) (k : Nat) : State :=
  let t := s.modifyFill (fun f => f.modifyComp k (fun c => { c with short := true }))
  match t.filler.fill.bind (fun f => f.recipe[k - 1]?) with
  | some c => t.onBooks (·.noFlowBin c.bin)
  | none => t

/-- No flow is found (R106): the gate closes; FEED(k) goes SETTLE(k), TOPUP goes to its settle. -/
def State.findNoFlow (s : State) : State :=
  match s.filler.step with
  | .feed k => (s.closeGate.markShort k).enterSettle k
  | .topup =>
    match s.filler.fill.bind (·.topupComp) with
    | some k => (s.closeGate.markShort k).endTopup .noFlow
    | none => s.closeGate
  | .idle | .armed | .tare | .settle _ | .check | .accept | .reject | .mark | .clear => s.closeGate

/-- NO_FLOW (R106). -/
def execNoFlow (s : State) : Host.Outcome State Fault Refusal := .next (s.atMoment s.noFlowIn State.findNoFlow)

/-! ### Pulses (R117, R131) -/

/-- REJECT_PULSE_END (R117): REJECT goes off, and the sequencer goes CLEAR. -/
def execRejectPulseEnd (s : State) : Host.Outcome State Fault Refusal :=
  .next (s.atMoment s.rejectEndIn State.enterClear)

/-- FIRING_PULSE_END (R131): the latch is cleared. -/
def execFiringPulseEnd (s : State) : Host.Outcome State Fault Refusal :=
  .next (if s.marker.firing.isSome then s.setMarker s.marker.clearLatch else s)

/-! ### Windows and extensions (R40, R156, R157) -/

/-- CENSUS_WINDOW_END (R40). -/
def execCensusWindowEnd (invoice : Nat) (s : State) : Host.Outcome State Fault Refusal :=
  .next (s.atMoment (s.censusEndIn invoice) (fun t => t.onBooks (·.endCensusWindow invoice)))

/-- CLOSE_WINDOW_END (R156). -/
def execCloseWindowEnd (invoice : Nat) (s : State) : Host.Outcome State Fault Refusal :=
  .next (s.atMoment (s.closeEndIn invoice) (fun t => t.onBooks (·.endCloseWindow invoice)))

/-- EXTENSION_END (R157). -/
def execExtensionEnd (invoice : Nat) (s : State) : Host.Outcome State Fault Refusal :=
  .next (s.atMoment (s.extensionEndIn invoice) (fun t => t.onBooks (·.endExtension invoice)))

end Sys2Proof.Machine
end

