-- ==== Sys2Proof/Machine/Dispatch.lean ====
section
/-! DEFINITION. The meaning of every command: one arm for each row of spec/opcode_table.json. -/

namespace Sys2Proof.Machine

/-- The effect of a command on everything but the queue. -/
def exec (i : Instr) (s : State) : Host.Outcome State Fault Refusal :=
  match i with
  | .configure params => Sys2Proof.Machine.execConfigure params s
  | .goOnline params => Sys2Proof.Machine.execGoOnline params s
  | .openInvoice params => Sys2Proof.Machine.execOpenInvoice params s
  | .abandonInvoice params => Sys2Proof.Machine.execAbandonInvoice params s
  | .closeInvoice params => Sys2Proof.Machine.execCloseInvoice params s
  | .releaseInvoice params => Sys2Proof.Machine.execReleaseInvoice params s
  | .startChest params => Sys2Proof.Machine.execStartChest params s
  | .abortChest params => Sys2Proof.Machine.execAbortChest params s
  | .voidChest params => Sys2Proof.Machine.execVoidChest params s
  | .recordSample params => Sys2Proof.Machine.execRecordSample params s
  | .remark params => Sys2Proof.Machine.execRemark params s
  | .binFill params => Sys2Proof.Machine.execBinFill params s
  | .binEmpty params => Sys2Proof.Machine.execBinEmpty params s
  | .binWithdraw params => Sys2Proof.Machine.execBinWithdraw params s
  | .zeroScale params => Sys2Proof.Machine.execZeroScale params s
  | .readInvoice params => Sys2Proof.Machine.execReadInvoice params s
  | .readChest params => Sys2Proof.Machine.execReadChest params s
  | .readBin params => Sys2Proof.Machine.execReadBin params s
  | .readLotSheet params => Sys2Proof.Machine.execReadLotSheet params s
  | .readNotice params => Sys2Proof.Machine.execReadNotice params s
  | .readFault params => Sys2Proof.Machine.execReadFault params s
  | .ackFault params => Sys2Proof.Machine.execAckFault params s
  | .readStatus params => Sys2Proof.Machine.execReadStatus params s
  | .resetStation params => Sys2Proof.Machine.execResetStation params s
  | .unknownCommand code params => Sys2Proof.Machine.execUnknownCommand code params s
  | .commandDiscarded bytes midByte => Sys2Proof.Machine.execCommandDiscarded bytes midByte s
  | .readResponse clocked => Sys2Proof.Machine.execReadResponse clocked s
  | .responseReady => Sys2Proof.Machine.execResponseReady s
  | .reset => Sys2Proof.Machine.execReset s
  | .resetEnd station rate => Sys2Proof.Machine.execResetEnd station rate s
  | .lineIdle => Sys2Proof.Machine.execLineIdle s
  | .lineHeld => Sys2Proof.Machine.execLineHeld s
  | .beginFrame => Sys2Proof.Machine.execBeginFrame s
  | .arbitrationLost char bit => Sys2Proof.Machine.execArbitrationLost char bit s
  | .lineDrive char bit => Sys2Proof.Machine.execLineDrive s char bit
  | .frameLost chars => Sys2Proof.Machine.execFrameLost chars s
  | .frameFiltered chars => Sys2Proof.Machine.execFrameFiltered chars s
  | .frameNaked chars => Sys2Proof.Machine.execFrameNaked chars s
  | .attemptEnd ack nak => Sys2Proof.Machine.execAttemptEnd ack nak s
  | .closeCallFrame sender invoice round packed planned => Sys2Proof.Machine.execCloseCallFrame sender invoice round packed planned s
  | .closedFrame sender invoice status packed missing net => Sys2Proof.Machine.execClosedFrame sender invoice status packed missing net s
  | .tallyFrame sender invoice answerTo planned high packed free inProgress net => Sys2Proof.Machine.execTallyFrame sender invoice answerTo planned high packed free inProgress net s
  | .claimFrame sender invoice planned first count => Sys2Proof.Machine.execClaimFrame sender invoice planned first count s
  | .chestFrame sender invoice serial gross tare net flags draws => Sys2Proof.Machine.execChestFrame sender invoice serial gross tare net flags draws s
  | .voidFrame sender invoice serial => Sys2Proof.Machine.execVoidFrame sender invoice serial s
  | .sampleFrame sender invoice serial weight => Sys2Proof.Machine.execSampleFrame sender invoice serial weight s
  | .markFrame sender invoice serial status => Sys2Proof.Machine.execMarkFrame sender invoice serial status s
  | .binFrame sender invoice bin action batch quantity => Sys2Proof.Machine.execBinFrame sender invoice bin action batch quantity s
  | .censusFrame sender invoice planned => Sys2Proof.Machine.execCensusFrame sender invoice planned s
  | .censusWindowEnd invoice => Sys2Proof.Machine.execCensusWindowEnd invoice s
  | .closeWindowEnd invoice => Sys2Proof.Machine.execCloseWindowEnd invoice s
  | .extensionEnd invoice => Sys2Proof.Machine.execExtensionEnd invoice s
  | .sampleWord edges => Sys2Proof.Machine.execSampleWord edges s
  | .goodSample => Sys2Proof.Machine.execGoodSample s
  | .sampleLoss => Sys2Proof.Machine.execSampleLoss s
  | .settleComplete => Sys2Proof.Machine.execSettleComplete s
  | .settleSlow => Sys2Proof.Machine.execSettleSlow s
  | .zeroScaleTimeout => Sys2Proof.Machine.execZeroScaleTimeout s
  | .noFlow => Sys2Proof.Machine.execNoFlow s
  | .rejectPulseEnd => Sys2Proof.Machine.execRejectPulseEnd s
  | .chestEdge level => Sys2Proof.Machine.execChestEdge level s
  | .holdActive => Sys2Proof.Machine.execHoldActive s
  | .holdEnd => Sys2Proof.Machine.execHoldEnd s
  | .encoderPulse => Sys2Proof.Machine.execEncoderPulse s
  | .shiftDone dataIn => Sys2Proof.Machine.execShiftDone dataIn s
  | .firingPulseEnd => Sys2Proof.Machine.execFiringPulseEnd s
  | .startConfirmed ticks => Sys2Proof.Machine.execStartConfirmed ticks s

end Sys2Proof.Machine
end

