-- ==== Sys2Proof/Machine/Step.lean ====
section
/-! DEFINITION. One step: the command at the front of the queue, or, when none waits, the next timed moment that is due
or the passing of 1 ms. -/

namespace Sys2Proof.Machine

/-- The step when no command waits: the timed moment that is due, in a fixed order, else 1 ms of station time passes
(log 2, 4). -/
def State.idle (s : State) : Host.Outcome State Fault Refusal :=
  match s.dueNow with
  | some i => exec i s
  | none => .next s.idleTick

/-- One step of the machine: the command at the front runs on the state with the queue's rest. -/
def step (s : State) : Host.Outcome State Fault Refusal :=
  match s.pending with
  | i :: rest => exec i (s.setPending rest)
  | [] => s.idle

/-- The state with the command that a word spells at the front of its queue; unchanged where the word spells none. -/
def State.withFetchWord (s : State) (nbits w : Nat) : State :=
  match Sys2Proof.decodeTableWord nbits w with
  | some i => s.setPending (i :: s.pending)
  | none => s

end Sys2Proof.Machine
end

