-- ==== Sys2Proof/Safety.lean ====
section
/-! DEFINITION. What claims about the machine are stated in: a command taken and answered, and the laws that every step
keeps (R23, R34, R54, R101, R109, R138, R165, R178). -/

namespace Sys2Proof.Machine

/-! ### A command taken and answered (R172, R173) -/

/-- A command transaction that arrives whole is taken: BUSY is clear, and no reset is in progress (R172). -/
abbrev State.portFree (s : State) : Prop := s.port.busy = false ∧ s.inReset = false

/-- A command is taken and passes the first four checks of R174. -/
abbrev State.admits (s : State) (code : Byte) (p : Params) : Prop :=
  s.portFree ∧ refusalOf code p.stated.length s.books.station = none

/-- The bytes MISO returns in a command transaction that carries `p`, the bytes beyond its stated length among them
(R172). -/
def State.misoBytes (s : State) (p : Params) : List Byte :=
  s.portByte :: List.replicate (p.stated.length + p.beyond.length + 1) 0

/-- The port when a command that carries `p` has been taken and its response is made (R172, R173). -/
def State.answered (s : State) (code : Byte) (p : Params) (st : Status) (data : List Byte) : Port :=
  { busy := true, ready := false, command := some code, reply := some ⟨code, st, data⟩, buffer := none,
    miso := s.misoBytes p }

/-- The machine when a command has been taken and answered with no effect but on the port. -/
def State.answers (s : State) (code : Byte) (p : Params) (st : Status) (data : List Byte) : State :=
  { s with port := s.answered code p st data }

/-- How many of the latest samples have the level `v`. -/
def trailing (v : Bool) (samples : List Bool) : Nat := (samples.reverse.takeWhile (fun x => x == v)).length

/-- The samples of the two slots, the one that this station drives dominant (R2, R16, R18). -/
def slotSamples (x : SlotSamples) (slot : Slot) : List Bool :=
  (List.range 16).map (fun i => slot ≠ .ack && x.ack.getLsbD i)
    ++ (List.range 16).map (fun i => slot ≠ .nak && x.nak.getLsbD i)

/-- The line when this station has done with a frame, after these samples of it: it waits for IDLE, and the runs are those
that the samples end with (R2, R20). -/
def State.lineAfter (s : State) (samples : List Bool) (slot : Slot) : Line :=
  { s.line with role := .none, assembler := .empty, slot := slot, recessiveRun := trailing true samples,
                dominantRun := trailing false samples }

/-- The line when a whole frame is over with `slot` driven by this station: the runs are those of the stop bit of C2 and of
the two slots (R2, R16, R18). -/
def State.lineOver (s : State) (x : SlotSamples) (slot : Slot) : Line :=
  s.lineAfter (List.replicate 16 true ++ slotSamples x slot) slot

/-- The machine when a frame has been taken: the ACK slot driven, the frame over, and the tables `b` (R18 to R20). -/
def State.took (s : State) (q : Sender) (b : Books) : State := { s with line := s.lineOver q.slots .ack, books := b }

/-- The frame `f` of the sender `q` is followed in full to its end, agrees with what the assembler has kept, has passed the
topic filter at the end of H4 if its kind is filtered, and has every field in range (R11, R15, R17, R21). -/
def State.takes (s : State) (q : Sender) (f : Frame) : Prop :=
  s.hears = true ∧ s.line.assembler.agrees (frameChars q.number.toNat f) = true ∧ f.inRange q.number.toNat = true
  ∧ (f.kind = 6 ∨ f.kind = 9 ∨ 4 ≤ s.line.assembler.chars.length)

/-- The sender and the frame of the ten rows of frames heard. -/
def heardOf : Instr → Option (Sender × Frame)
  | .closeCallFrame q n round packed planned =>
    some (q, .closeCall n.toNat round.toNat packed.toNat planned.toNat)
  | .closedFrame q n status packed missing net =>
    some (q, .closed n.toNat status.toNat packed.toNat missing.toNat net.toNat)
  | .tallyFrame q n answerTo planned high packed free inProgress net =>
    some (q, .tally n.toNat ⟨answerTo.toNat, planned.toNat, high.toNat, packed.toNat, free.toNat,
      inProgress.toNat, net.toNat⟩)
  | .claimFrame q n planned first count => some (q, .claim n.toNat planned.toNat first.toNat count.toNat)
  | .chestFrame q n serial gross tare net flags draws =>
    some (q, .chest n.toNat ⟨serial.toNat, gross.toNat, tare.toNat, net.toNat, flags.toNat,
      draws.map (fun d => ⟨d.1.toNat, d.2.toNat⟩)⟩)
  | .voidFrame q n serial => some (q, .void n.toNat serial.toNat)
  | .sampleFrame q n serial weight => some (q, .sample n.toNat serial.toNat weight.toNat)
  | .markFrame q n serial status => some (q, .mark n.toNat serial.toNat status.toNat)
  | .binFrame q n bin action batch quantity =>
    some (q, .bin n.toNat bin.toNat action.toNat batch.toNat quantity.toNat)
  | .censusFrame q n planned => some (q, .census n.toNat planned.toNat)
  | _ => none

/-- The queue entry of a frame that has just joined (R23). -/
def TxEntry.fresh (f : Frame) : TxEntry := { frame := f, attempts := 0, underWay := false, removal := .none }

/-- A configuration with none of the defects that R176 lists. -/
def configLawful (p : List Byte) : Prop :=
  1 ≤ byteAt p 0 ∧ byteAt p 0 ≤ 8 ∧ num2 p 1 ≤ 5000 ∧ (byteAt p 3 = 4 ∨ byteAt p 3 = 8 ∨ byteAt p 3 = 16)
  ∧ 10000 ≤ num3 p 4 ∧ num3 p 4 ≤ 2000000 ∧ -8388591 ≤ signed3 p 7 ∧ signed3 p 7 ≤ 8388591
  ∧ 1000 ≤ num2 p 10 ∧ num2 p 10 ≤ 30000 ∧ 1 ≤ byteAt p 12 ∧ byteAt p 12 ≤ 50
  ∧ 100 ≤ num2 p 13 ∧ num2 p 13 ≤ 2000 ∧ num2 p 13 % 50 = 0 ∧ byteAt p 15 < 8
  ∧ (∀ k < 4, byteAt p (16 + 5 * k) ≠ 0 →
      byteAt p (16 + 5 * k) ≤ 64 ∧ num2 p (17 + 5 * k) ≤ 1000 ∧ num2 p (19 + 5 * k) ≤ 300)
  ∧ (∀ k < 4, ∀ j < k, byteAt p (16 + 5 * k) ≠ 0 → byteAt p (16 + 5 * j) ≠ byteAt p (16 + 5 * k))

/-- The numbers, the recipe and the sizes of the texts of OPEN INVOICE are lawful: check 1 of R35. -/
def openLawful (p : List Byte) : Prop :=
  1 ≤ num2 p 0 ∧ num2 p 0 ≤ 9999 ∧ 1 ≤ byteAt p 2 ∧ byteAt p 2 ≤ 8 ∧ 1 ≤ byteAt p 11 ∧ byteAt p 11 ≤ 6
  ∧ 1 ≤ byteAt p 18 ∧ byteAt p 18 ≤ 99 ∧ 500 ≤ num2 p 19 ∧ num2 p 19 ≤ 10000 ∧ 5 ≤ byteAt p 21 ∧ byteAt p 21 ≤ 100
  ∧ 100 ≤ num2 p 22 ∧ num2 p 22 ≤ num2 p 24 ∧ num2 p 24 ≤ 1500 ∧ 1 ≤ byteAt p 26 ∧ byteAt p 26 ≤ 4
  ∧ (∀ k < byteAt p 26, 1 ≤ byteAt p (27 + 3 * k) ∧ byteAt p (27 + 3 * k) ≤ 64
      ∧ 1 ≤ num2 p (28 + 3 * k) ∧ num2 p (28 + 3 * k) ≤ 1000)
  ∧ (∀ k < byteAt p 26, ∀ j < k, byteAt p (27 + 3 * j) ≠ byteAt p (27 + 3 * k))
  ∧ ((List.range (byteAt p 26)).map (fun k => num2 p (28 + 3 * k))).sum = 1000 ∧ byteAt p 39 ≤ 200

/-- The bytes of a text field, its length byte at index `i`, within a field of `width` characters. -/
def textAt (p : List Byte) (width i : Nat) : List Byte := (p.drop (i + 1)).take (min width (byteAt p i))

/-- The recipe that OPEN INVOICE carries. -/
def recipeAt (p : List Byte) : List Component :=
  (List.range (byteAt p 26)).map (fun k => ⟨byteAt p (27 + 3 * k), num2 p (28 + 3 * k)⟩)

/-- The commands of the layout table with their codes (12, Command layouts). -/
def hostRows : List ((Params → Instr) × Byte) :=
  [(.configure, 0x01), (.goOnline, 0x02), (.openInvoice, 0x10), (.abandonInvoice, 0x11), (.closeInvoice, 0x12),
   (.releaseInvoice, 0x13), (.startChest, 0x20), (.abortChest, 0x21), (.voidChest, 0x22), (.recordSample, 0x23),
   (.remark, 0x24), (.binFill, 0x30), (.binEmpty, 0x31), (.binWithdraw, 0x32), (.zeroScale, 0x33),
   (.readInvoice, 0x40), (.readChest, 0x41), (.readBin, 0x42), (.readLotSheet, 0x43), (.readNotice, 0x44),
   (.readFault, 0x45), (.ackFault, 0x46), (.readStatus, 0x47), (.resetStation, 0x7F)]

/-! ### Laws of the tables -/

/-- The Transmit Queue within its capacity (R23): 8 entries, at most 7 of them of a kind other than TALLY. -/
def Books.queueLaw (b : Books) : Prop :=
  b.tx.length ≤ 8 ∧ (b.tx.filter (fun e => !e.frame.isTally)).length ≤ 7

/-- The notice queue within its capacity (R178). -/
def Books.noticeLaw (b : Books) : Prop := b.notices.length ≤ 32

/-- The fault list in ascending code order, no code twice (R165). -/
def Books.faultLaw (b : Books) : Prop := b.faults.Pairwise (fun d e => d.code.num < e.code.num)

/-- The own free-serial list of a record: 0 to 16 serials, ascending, no duplicates (R34, R53). -/
def Invoice.freeLaw (r : Invoice) : Prop := r.free.length ≤ 16 ∧ r.free.Pairwise (· < ·)

/-- The invoice table: at most 6 records, no two for one invoice, each with a lawful free list (R34). -/
def Books.invoiceLaw (b : Books) : Prop :=
  b.invoices.length ≤ 6 ∧ b.invoices.Pairwise (fun q r => q.number < r.number) ∧ ∀ r ∈ b.invoices, r.freeLaw

/-- The serials of the table (R54): the high mark is at most 99 and the ceiling at most the planned count; every free
serial lies between 1 and the smaller of the two and is on no chest record of its invoice.  It rests on the records of the
store, each of an invoice in the table and with a serial that the high mark covers, and on the claims that are queued. -/
def Books.serialLaw (b : Books) : Prop :=
  (∀ r ∈ b.invoices, r.planned ≤ 99 ∧ r.ceiling ≤ r.planned ∧ r.high ≤ 99
    ∧ ∀ x ∈ r.free, 1 ≤ x ∧ x ≤ r.high ∧ x ≤ r.ceiling ∧ ∀ c ∈ b.chests, c.invoice = r.number → c.key ≠ .packed x)
  ∧ (∀ c ∈ b.chests, ∃ r ∈ b.invoices, r.number = c.invoice ∧ ∀ x, c.key = .packed x → 1 ≤ x ∧ x ≤ r.high)
  ∧ (∀ e ∈ b.tx, ∀ n planned first count, e.frame = .claim n planned first count → 1 ≤ first ∧ first + count ≤ 100)

/-- The laws of the two queues and of the fault list together. -/
def Books.lawful (b : Books) : Prop := b.queueLaw ∧ b.noticeLaw ∧ b.faultLaw

/-! ### Laws of the lane -/

/-- FEED(k) and TOPUP: the only steps with a gate open (R101). -/
def FillStep.feeds : FillStep → Bool
  | .feed _ | .topup => true
  | .idle | .armed | .tare | .settle _ | .check | .accept | .reject | .mark | .clear => false

/-- The severe faults that put the station OFFLINE, codes 1 and 2 (R166). -/
def FaultCode.offline (c : FaultCode) : Bool := c.severe && !c.halts

/-- The station state agrees with the fault list and with what runs (R101, R123, R169 to R171, R175, R177): severe
faults stand only in HALT and OFFLINE, codes 1 and 2 only in OFFLINE; a fill runs only in ONLINE; the online wait
stands only in CONFIGURED; frames are sent only in ONLINE and HALT; reset in progress is UNCONFIGURED. -/
def State.stationLaw (s : State) : Prop :=
  (s.books.station ≠ .halt → s.books.station ≠ .offline → s.books.anySevere = false)
  ∧ (s.books.station ≠ .offline → s.books.faults.any (fun e => e.code.offline) = false)
  ∧ (s.filler.step.inFill = true → s.books.station = .online)
  ∧ (s.books.onlineWait = true → s.books.station = .configured)
  ∧ (s.line.role = .sender → s.books.station.onLine = true)
  ∧ (s.inReset = true → s.books.station = .unconfigured)

/-- A gate is open only in FEED(k) and TOPUP and with HOLD inactive, and no settle request of the Fill Sequencer stands
while HOLD is active (R101, R121). -/
def State.gateLaw (s : State) : Prop :=
  (s.filler.gate.isOpen = true → s.filler.step.feeds = true ∧ s.pins.hold = false)
  ∧ (s.pins.hold = true → s.weigh.request.any (fun q => q.who.ofLane) = false)

/-- The law under which every open gate is safe (R101). -/
def State.gatesSafe (s : State) : Prop := s.stationLaw ∧ s.gateLaw

/-- The chest store (R138, R139): no two records under one key, 256 slots with the reserved one, and a fill in progress
has its reservation. -/
def State.storeLaw (s : State) : Prop :=
  s.books.chests.Pairwise (fun c d => c.order < d.order)
  ∧ s.books.chests.length + (if s.books.reservation.isSome then 1 else 0) ≤ 256
  ∧ (s.filler.step.inFill = true → s.books.reservation.isSome = true)

/-- The reservation numbers within 255 (R139): the counter, the chest in progress, and every ORPHAN record. -/
def State.reservationLaw (s : State) : Prop :=
  s.books.reservationCounter ≤ 255 ∧ (∀ f, s.filler.fill = some f → f.reservation ≤ 255)
  ∧ ∀ c ∈ s.books.chests, ∀ k, c.key = .orphan k → k ≤ 255

/-- Every feeder's in-flight value lies in 0 to 300 weigh units (R100, R109). -/
def State.inflightLaw (s : State) : Prop := ∀ v ∈ s.filler.inflight.toList, v ≤ 300

end Sys2Proof.Machine
end

