-- ==== Sys2Proof/Certificates/Slice0/Obligations.lean ====
section
/-! DEFINITION. The statements for the provers, each one proposition about the model, from the manual's numbered rules. -/

open Sys2Proof Sys2Proof.Machine

/-! ### The machine as a whole -/

/-- A step with a command at the front of the queue runs that command on the state with the queue's rest. -/
def Obligations.StepRunsTheFrontCommand : Prop :=
  ∀ (c : Instr) (rest : List Instr) (s : State), s.pending = c :: rest → step s = exec c { s with pending := rest }

/-- With no command waiting, a timed moment that is due is taken, the first one due of the list given here; else 1 ms of
station time passes and the settle, no-flow and reject pulse timers run.  The model's choices: the step's grain (log 2), the
order of the list (log 4), a time counts as reached while it lies less than half the range back (log 27), the firing pulse
is over once station time has moved on (log 30), and no time passes while reset is in progress (log 28). -/
def Obligations.EmptyQueueLetsTimePass : Prop :=
  (∀ (s : State) (reached : Time → Bool) (due : List (Bool × Instr)),
    reached = (fun t => decide ((s.books.time - t).toNat < 2 ^ 31)) →
    due = [
      (s.port.busy && s.port.reply.isSome, .responseReady),
      (s.weigh.scale.isSome && s.weigh.holding.any (fun h => reached (h.time + 1)), .goodSample),
      (!s.weigh.lossFound && s.weigh.lastGood.any (fun t => reached (t + 50)), .sampleLoss),
      (s.weigh.request.isSome && s.weigh.steady && s.weigh.reading.isSome
        && decide ((s.weigh.scale.map (·.settle)).getD 0 ≤ s.weigh.timer), .settleComplete),
      (s.weigh.request.any (fun q => !q.slow && decide (q.who ≠ .zeroScale) && reached (q.time + 5000)), .settleSlow),
      (s.weigh.request.any (fun q => decide (q.who = .zeroScale) && reached (q.time + 5000)), .zeroScaleTimeout),
      (decide (s.filler.gate ≠ .closed) && s.filler.flow.any (fun w => decide (1500 ≤ w.timer)), .noFlow),
      (decide (s.filler.step = .reject) && !s.pins.hold && decide (200 ≤ s.filler.rejectTimer), .rejectPulseEnd),
      (s.marker.firing.any (fun t => decide (t ≠ s.books.time)), .firingPulseEnd)]
      ++ s.books.invoices.map (fun r => ((s.books.invoice? r.number).any (fun x => match x.phase with
          | .window t => reached t
          | _ => false), .censusWindowEnd r.number))
      ++ s.books.rounds.map (fun d => ((s.books.round? d.invoice).any (fun x => match x.phase with
          | .window t => reached t
          | _ => false), .closeWindowEnd d.invoice))
      ++ s.books.rounds.map (fun d => ((s.books.round? d.invoice).any (fun x => match x.phase with
          | .extension t => reached t
          | _ => false), .extensionEnd d.invoice)) →
    s.dueNow = if s.inReset then none else (due.find? (·.1)).map (·.2))
  ∧ ∀ s : State, s.pending = [] →
    (∀ i, s.dueNow = some i → step s = exec i s)
    ∧ (s.inReset = true → step s = .next s)
    ∧ (s.inReset = false → s.dueNow = none → ∃ t, step s = .next t
        ∧ t.books = { s.books with time := s.books.time + 1 }
        ∧ t.weigh = { s.weigh with
          timer := if s.weigh.request ≠ none ∧ s.weigh.steady = true
            then min ((s.weigh.scale.map (·.settle)).getD 0) (s.weigh.timer + 1)
            else s.weigh.timer }
        ∧ t.filler.flow = (if s.filler.gate = .closed then s.filler.flow
            else s.filler.flow.map (fun w => ⟨w.reference, min 1500 (w.timer + 1)⟩))
        ∧ t.filler.rejectTimer = (if s.filler.step = .reject ∧ s.pins.hold = false
            then min 200 (s.filler.rejectTimer + 1) else s.filler.rejectTimer)
        ∧ t.filler = { s.filler with flow := t.filler.flow, rejectTimer := t.filler.rejectTimer }
        ∧ t = { s with books := t.books, weigh := t.weigh, filler := t.filler })

/-- Every command answers a next state, and none touches the queue of waiting commands. -/
def Obligations.EveryCommandLeavesTheQueue : Prop :=
  ∀ (c : Instr) (s : State), ∃ t, exec c s = .next t ∧ t.pending = s.pending

/-- The machine right after reset holds what the chapters state for reset, and every output is off. -/
def Obligations.ResetHoldsTheSpecsValues : Prop :=
  State.reset.books.station = .unconfigured ∧ State.reset.books.onlineWait = false ∧ State.reset.books.time = 0
  ∧ State.reset.books.faults = [] ∧ State.reset.books.notices = [] ∧ State.reset.books.tx = []
  ∧ State.reset.books.invoices = [] ∧ State.reset.books.chests = [] ∧ State.reset.books.reservation = none
  ∧ State.reset.books.reservationCounter = 0 ∧ State.reset.books.rounds = [] ∧ State.reset.books.sheets = []
  ∧ (∀ k, State.reset.books.repeat? k = none)
  ∧ (∀ n, State.reset.books.bin n = { state := .unknown, batch := none, remaining := none, overdraw := 0 })
  ∧ (∀ n, State.reset.books.feederOf n = 0)
  ∧ State.reset.line.level = .busy ∧ State.reset.line.recessiveRun = 0 ∧ State.reset.line.dominantRun = 0
  ∧ State.reset.weigh.word = none ∧ State.reset.weigh.holding = none ∧ State.reset.weigh.window = []
  ∧ State.reset.weigh.lastGood = none ∧ State.reset.weigh.saturatedSince = none
  ∧ State.reset.weigh.request = none ∧ State.reset.weigh.timer = 0
  ∧ State.reset.filler.step = .idle ∧ State.reset.filler.fill = none ∧ State.reset.filler.gate = .closed
  ∧ (∀ k, State.reset.inflight k = 0)
  ∧ State.reset.marker.chain = .headIdle ∧ State.reset.marker.job = none
  ∧ State.reset.port.busy = false ∧ State.reset.port.ready = false ∧ State.reset.port.buffer = none
  ∧ (∀ k, State.reset.coarseOut k = false ∧ State.reset.fineOut k = false)
  ∧ State.reset.outfeedRun = false ∧ State.reset.rejectOut = false ∧ State.reset.noticeOut = false
  ∧ State.reset.chainOut = .rest ∧ State.reset.dataOut = [false]

/-! ### The command port -/

/-- The first four checks of R174: the layout table's lengths, the station states that take each command, and the order
of the refusals. -/
def Obligations.TakenCommandsAreCheckedInOrder : Prop :=
  (∀ code : Byte, layoutLength code = (([(0x01, 36), (0x02, 0), (0x10, 40), (0x11, 2), (0x12, 2), (0x13, 2), (0x20, 2),
      (0x21, 0), (0x22, 3), (0x23, 4), (0x24, 3), (0x30, 5), (0x31, 1), (0x32, 1), (0x33, 0), (0x40, 2), (0x41, 4),
      (0x42, 1), (0x43, 4), (0x44, 0), (0x45, 1), (0x46, 1), (0x47, 3), (0x7F, 0)] : List (Byte × Nat)).lookup code))
  ∧ (∀ (code : Byte) (length : Nat) (st : StationState),
      refusalOf code length st =
        if layoutLength code = none then some .unknownCommand
        else if layoutLength code ≠ some length then some .range
        else if code = 0x01 then (if st = .unconfigured then none else some .wrongState)
        else if code = 0x02 then (if st = .configured then none else some .wrongState)
        else if code ∈ [0x40, 0x41, 0x42, 0x43, 0x44, 0x45, 0x47, 0x7F] then none
        else if st = .unconfigured ∨ st = .configured ∨ st = .offline then some .wrongState
        else if st = .halt ∧ code ∈ [0x20, 0x12, 0x24] then some .halted
        else none)

/-- A command refused by the first four checks, an unknown code among them, changes nothing but the port, and carries no
data; ACK FAULT alone carries the station state with any status, these four checks' refusals too by the model's reading
(log 18). -/
def Obligations.RefusedCommandsChangeOnlyThePort : Prop :=
  (∀ row ∈ hostRows, ∀ (p : Params) (s : State) (st : Status),
    s.portFree → refusalOf row.2 p.stated.length s.books.station = some st →
      exec (row.1 p) s
        = .next (s.answers row.2 p st (if row.2 = 0x46 then [BitVec.ofNat 8 s.books.station.num] else [])))
  ∧ (∀ (code : Byte) (p : Params) (s : State), layoutLength code = none → code ≠ 0xFF → s.portFree →
    exec (.unknownCommand code p) s = .next (s.answers code p .unknownCommand []))

/-- A command transaction begun while BUSY, one that falls short of its stated length, and one broken off within a byte
change nothing but the bytes that MISO returned: the port byte, then 00h. -/
def Obligations.DiscardedTransactionsChangeNothing : Prop :=
  (∀ row ∈ hostRows, ∀ (p : Params) (s : State), s.port.busy = true →
      exec (row.1 p) s
        = .next { s with port := { s.port with miso := s.misoBytes p } })
  ∧ (∀ (code : Byte) (p : Params) (s : State), layoutLength code = none → code ≠ 0xFF → s.port.busy = true →
      exec (.unknownCommand code p) s
        = .next { s with port := { s.port with miso := s.misoBytes p } })
  ∧ (∀ (b : Byte) (l : List Byte) (midByte : Bool) (s : State), b ≠ 0xFF →
      (s.port.busy = true ∨ midByte = true ∨ l = [] ∨ l.length < 1 + byteAt l 0) →
      exec (.commandDiscarded (b :: l) midByte) s
        = .next { s with port := { s.port with miso := s.portByte :: List.replicate l.length 0 } })

/-- READ RESPONSE returns the port byte, whose bits are BUSY, RESPONSE READY and NOTICE, and the response that the buffer
holds, or 00h, BUSY and length 0, and changes neither; bytes clocked beyond it may be anything.  A ready response goes to
the buffer, BUSY clears, RESPONSE READY sets; one that has been made is ready at the latest once 1 ms of station time has
passed.  That within that ms the row says when is the model's choice (log 25). -/
def Obligations.ResponsesAreBufferedAndRead : Prop :=
  (∀ (clocked : Nat) (s : State) (whole : List Byte),
    ((∃ r, s.port.busy = false ∧ s.port.buffer = some r
        ∧ whole = s.portByte :: r.code :: r.status.code :: BitVec.ofNat 8 r.data.length :: r.data)
      ∨ ((s.port.busy = true ∨ s.port.buffer = none) ∧ whole = [s.portByte, 0x00, 0x01, 0x00])) →
    ∃ rest : List Byte, rest.length = clocked - whole.length
      ∧ exec (.readResponse clocked) s
        = .next { s with port := { s.port with miso := whole.take clocked ++ rest },
                         spare := s.spare + (clocked - whole.length) })
  ∧ (∀ (s : State) (r : Response), s.port.busy = true → s.port.reply = some r →
    exec .responseReady s
      = .next { s with port := { busy := false, ready := true, command := none, reply := none, buffer := some r,
                                 miso := s.port.miso } })
  ∧ (∀ (s : State) (d : Nat),
      (∀ r, 1 ≤ d → s.port.busy = true → s.port.reply = some r →
        (s.elapse d).port = { busy := false, ready := true, command := none, reply := none, buffer := some r,
                              miso := s.port.miso })
      ∧ ((d = 0 ∨ s.port.busy = false ∨ s.port.reply = none) → (s.elapse d).port = s.port))
  ∧ (∀ s : State, s.portByte.getLsbD 0 = s.port.busy ∧ s.portByte.getLsbD 1 = s.port.ready
      ∧ s.portByte.getLsbD 2 = s.noticeOut ∧ ∀ k, 3 ≤ k → s.portByte.getLsbD k = false)

/-! ### Reset and configuration -/

/-- The RESET pin and RESET STATION, in every station state, return every block to its values after reset with every
output off and BUSY shown; the inputs and the waiting commands are outside the part.  The model's choices in it: the
head's path and latch stand, but for a SHIFT cut short (log 6, 42); the straps, the inputs and the waiting commands stand
(log 28); fields of `Line.reset`, `Weigh.reset` and `Filler.reset` that the manual gives no value (log 33). -/
def Obligations.ResetEmptiesEveryBlock : Prop :=
  ∀ (c : Instr) (p : Params) (s : State), (c = .reset ∨ (c = .resetStation p ∧ p.stated = [] ∧ s.portFree)) →
    ∃ t, exec c s = .next t ∧ t.inReset = true ∧ t.pending = s.pending ∧ t.pins = s.pins
      ∧ t.books = { Books.reset with straps := s.books.straps } ∧ t.line = Line.reset ∧ t.weigh = Weigh.reset
      ∧ t.filler = Filler.reset
      ∧ t.marker = { Marker.reset with path := t.marker.path, latch := s.marker.latch, unknown := t.marker.unknown }
      ∧ (s.marker.chain ≠ .shift → t.marker.path = s.marker.path ∧ t.marker.unknown = s.marker.unknown)
      ∧ t.port.busy = true ∧ t.port.ready = false ∧ t.port.buffer = none
      ∧ (∀ k, t.coarseOut k = false ∧ t.fineOut k = false)
      ∧ t.outfeedRun = false ∧ t.rejectOut = false ∧ t.noticeOut = false
      ∧ t.chainOut = .rest ∧ t.dataOut = [false]

/-- As reset ends the straps are read and held: valid ones leave the station as reset has left it, UNCONFIGURED; invalid
ones put it OFFLINE with STRAP_INVALID raised, once when it follows RESET; BUSY clears, and the remembered CHEST level
takes the input's.  That outside reset the row has no effect is the model's convention (log 1). -/
def Obligations.ResetEndReadsTheStraps : Prop :=
  (∀ (station : BitVec 5) (rate : BitVec 2) (s : State), s.inReset = true →
    (station ≠ 0 → rate ≠ 3 → exec (.resetEnd station rate) s = .next
      { s with
        inReset := false, books := { s.books with straps := { station := station.toNat, rate := rate.toNat } },
        filler := { s.filler with remembered := s.pins.chest }, port := { s.port with busy := false } })
    ∧ ((station = 0 ∨ rate = 3) → ∃ t, exec (.resetEnd station rate) s = .next t ∧ t.inReset = false
        ∧ t.books.station = .offline ∧ (∃ e ∈ t.books.faults, e.code = .strapInvalid)
        ∧ t.books.straps = { station := station.toNat, rate := rate.toNat } ∧ t.filler.remembered = s.pins.chest
        ∧ t.port.busy = false ∧ t.pins = s.pins ∧ t.line = s.line ∧ t.pending = s.pending))
  ∧ (∀ (station : BitVec 5) (rate : BitVec 2) (s : State), s.inReset = false →
      exec (.resetEnd station rate) s = .next s)
  ∧ (∀ (station : BitVec 5) (rate : BitVec 2) (s₀ s : State), exec .reset s₀ = .next s →
      ∃ t, exec (.resetEnd station rate) s = .next t ∧ t.inReset = false ∧ t.port = { s.port with busy := false }
        ∧ t.books.straps = { station := station.toNat, rate := rate.toNat } ∧ t.filler.remembered = s.pins.chest
        ∧ (if station = 0 ∨ rate = 3 then
            t.books.station = .offline
            ∧ t.books.faults = [{ code := .strapInvalid, count := 1, cause := .present, first := 0, latest := 0 }]
          else t.books.station = .unconfigured ∧ t.books.faults = [])
        ∧ t.line = s.line ∧ t.weigh = s.weigh ∧ t.pins = s.pins ∧ t.pending = s.pending)

/-- A lawful CONFIGURE gives every block its values and makes the station CONFIGURED; any other is refused BAD_CONFIG. -/
def Obligations.ConfigureGivesEveryOwnerItsValues : Prop :=
  ∀ (p : Params) (s : State), s.admits 0x01 p →
    (configLawful p.stated → ∃ t, exec (.configure p) s = .next t
      ∧ t.books = { s.books with station := .configured, feeders := t.books.feeders,
                                 settings := some { blockSize := byteAt p.stated 0, lowThreshold := num2 p.stated 1 } }
      ∧ t.weigh = { Weigh.reset with
                    lastGood := some s.books.time,
                    scale := some { window := byteAt p.stated 3, c10 := num3 p.stated 4, zero := signed3 p.stated 7,
                                    capacity := num2 p.stated 10, motion := byteAt p.stated 12, settle := num2 p.stated 13 } }
      ∧ (∀ k (h : k < 4),
          (byteAt p.stated (16 + 5 * k) = 0 → t.books.feeders[k] = none ∧ t.filler.inflight[k] = 0)
          ∧ (byteAt p.stated (16 + 5 * k) ≠ 0 → t.filler.inflight[k] = num2 p.stated (19 + 5 * k)
              ∧ t.books.feeders[k] = some { bin := byteAt p.stated (16 + 5 * k), fineBand := num2 p.stated (17 + 5 * k),
                                            initial := num2 p.stated (19 + 5 * k) }))
      ∧ t.filler = { s.filler with inflight := t.filler.inflight }
      ∧ (byteAt p.stated 15 % 2 = 0 → t.marker = { s.marker with head := none })
      ∧ (byteAt p.stated 15 % 2 = 1 → t.marker = { s.marker with
          head := some { nozzle32First := byteAt p.stated 15 / 2 % 2 = 1, activeLow := byteAt p.stated 15 / 4 % 2 = 1 },
          firing := none, latch := if byteAt p.stated 15 / 4 % 2 = 1 then BitVec.allOnes 32 else 0 })
      ∧ t = { s with books := t.books, weigh := t.weigh, filler := t.filler, marker := t.marker,
                     port := s.answered 0x01 p .ok [] })
    ∧ (¬ configLawful p.stated → exec (.configure p) s = .next (s.answers 0x01 p .badConfig []))

/-- GO ONLINE sets the wait and answers 0 on a busy line, is refused BUSY while the wait is set, and on an idle line with
no sample fault standing makes the station ONLINE with its notice; with sample loss or a saturation run of 1,000 ms
standing that fault is raised at the same moment and the station goes on to HALT. -/
def Obligations.GoOnlineAtAnIdleLine : Prop :=
  ∀ (p : Params) (s : State), s.admits 0x02 p →
    (s.books.onlineWait = true → exec (.goOnline p) s = .next (s.answers 0x02 p .busy []))
    ∧ (s.books.onlineWait = false → s.line.level ≠ .idle →
        exec (.goOnline p) s
          = .next { s with books := { s.books with onlineWait := true }, port := s.answered 0x02 p .ok [0x00] })
    ∧ (s.books.onlineWait = false → s.line.level = .idle → s.weigh.lossFound = false → s.saturationDue = false →
        exec (.goOnline p) s
          = .next { s with
              books := ({ s.books with station := .online, onlineWait := false } : Books).raiseNotice
                .online none none none,
              port := s.answered 0x02 p .ok [0x01] })
    ∧ (s.books.onlineWait = false → s.line.level = .idle → s.weigh.lossFound = true →
        ∃ t, exec (.goOnline p) s = .next t ∧ t.books.station = .halt ∧ t.books.anyHalting = true
          ∧ (∃ e ∈ t.books.faults, e.code = .sampleLoss) ∧ t.port = s.answered 0x02 p .ok [0x01])
    ∧ (s.books.onlineWait = false → s.line.level = .idle → s.weigh.lossFound = false → s.saturationDue = true →
        ∃ t, exec (.goOnline p) s = .next t ∧ t.books.station = .halt
          ∧ (∃ e ∈ t.books.faults, e.code = .scaleSaturated) ∧ t.weigh.saturationRaised = true
          ∧ t.port = s.answered 0x02 p .ok [0x01])

/-! ### Invoice commands -/

/-- OPEN INVOICE: the checks in R35's order with their refusals; taken, the record joins in CENSUS with the fields given and
a CENSUS is queued for it.  That unused recipe entries are not checked is the model's reading (log 24), and that the number
leaves the list of freed lot sheets is its choice (log 43). -/
def Obligations.OpenInvoiceMakesARecord : Prop :=
  ∀ (p : Params) (s : State), s.admits 0x10 p →
    (¬ openLawful p.stated → exec (.openInvoice p) s = .next (s.answers 0x10 p .range []))
    ∧ (openLawful p.stated → (∃ c ∈ textAt p.stated 8 2 ++ textAt p.stated 6 11, isGlyph c = false) →
        exec (.openInvoice p) s = .next (s.answers 0x10 p .badText []))
    ∧ (openLawful p.stated → (∀ c ∈ textAt p.stated 8 2 ++ textAt p.stated 6 11, isGlyph c = true) →
        ((∃ k ∈ recipeAt p.stated, s.books.feederOf k.bin = 0) →
          exec (.openInvoice p) s = .next (s.answers 0x10 p .noFeeder []))
        ∧ ((∀ k ∈ recipeAt p.stated, s.books.feederOf k.bin ≠ 0) →
          (s.books.hasInvoice (num2 p.stated 0) = true →
            exec (.openInvoice p) s = .next (s.answers 0x10 p .duplicate []))
          ∧ (s.books.hasInvoice (num2 p.stated 0) = false → 6 ≤ s.books.invoices.length →
            exec (.openInvoice p) s = .next (s.answers 0x10 p .tableFull []))
          ∧ (s.books.hasInvoice (num2 p.stated 0) = false → s.books.invoices.length < 6 →
            exec (.openInvoice p) s = .next
              { s with
                books := ({ s.books with
                  invoices := putBy (fun r => r.number)
                    { number := num2 p.stated 0, mark := textAt p.stated 8 2, grade := textAt p.stated 6 11, planned := byteAt p.stated 18,
                      ceiling := byteAt p.stated 18, target := num2 p.stated 19, tolerance := byteAt p.stated 21, tareMin := num2 p.stated 22,
                      tareMax := num2 p.stated 24, recipe := recipeAt p.stated, shareTolerance := byteAt p.stated 39, state := .census,
                      role := none, view := .whole, participants := [s.books.straps.station], high := 0, free := [],
                      full := false, phase := .queued, recount := false, tallies := [], sent := none,
                      surrendered := 0 } s.books.invoices,
                  released := s.books.released.filter (fun n => n ≠ num2 p.stated 0) } : Books).queueFrame none
                  (.census (num2 p.stated 0) (byteAt p.stated 18)),
                port := s.answered 0x10 p .ok [] })))

/-- ABANDON INVOICE frees a record not CLOSED with its chest records, its round and its CLAIM, CENSUS, CLOSE CALL and TALLY
entries, one under way leaving unapplied at its attempt's end; RELEASE INVOICE frees a CLOSED record, its records and lot
sheet.  That a CLAIM under way then leaves unapplied too is the model's reading of R50 (log 23), and that a sheet was freed
is remembered for R49's NO_LOT (log 43).  A fill for the released invoice runs on without its record, and does not hold up
ABANDON INVOICE of one opened again under the number (log 44). -/
def Obligations.AbandonAndReleaseFreeTheRecord : Prop :=
  (∀ (p : Params) (s : State) (n : Nat), s.admits 0x11 p → n = num2 p.stated 0 →
    ((∀ r, s.books.invoice? n = some r → r.state = .closed) →
      exec (.abandonInvoice p) s = .next (s.answers 0x11 p .notActive []))
    ∧ (∀ r, s.books.invoice? n = some r → r.state ≠ .closed →
        ((s.filler.step ≠ .idle ∧ ∃ f, s.filler.fill = some f ∧ f.invoice = n ∧ f.freed = false)
          ∨ (∃ j, s.marker.job = some j ∧ j.requester = .remark ∧ j.invoice = n)) →
        exec (.abandonInvoice p) s = .next (s.answers 0x11 p .busy []))
    ∧ (∀ r, s.books.invoice? n = some r → r.state ≠ .closed →
        (∀ f, s.filler.fill = some f → f.invoice = n → f.freed = false → s.filler.step = .idle) →
        (∀ j, s.marker.job = some j → j.requester = .remark → j.invoice ≠ n) →
        ∃ t, exec (.abandonInvoice p) s = .next t
          ∧ t.books.invoices = s.books.invoices.filter (fun r => r.number ≠ n)
          ∧ t.books.chests = s.books.chests.filter (fun c => c.invoice ≠ n)
          ∧ t.books.rounds = s.books.rounds.filter (fun d => d.invoice ≠ n)
          ∧ t.books.tx = (s.books.tx.filter (fun e =>
                !([1, 3, 4, 10].contains e.frame.kind && e.frame.invoice = n) || e.underWay)).map (fun e =>
              if [1, 3, 4, 10].contains e.frame.kind && e.frame.invoice = n then { e with removal := .discard } else e)
          ∧ t.books.faults = (if 2 ≤ t.books.freeSlots then (s.books.clearCause .storeFull).faults else s.books.faults)
          ∧ t = { s with
              books := { s.books with invoices := t.books.invoices, chests := t.books.chests, rounds := t.books.rounds,
                                      tx := t.books.tx, faults := t.books.faults },
              port := s.answered 0x11 p .ok [] }))
  ∧ (∀ (p : Params) (s : State) (n : Nat), s.admits 0x13 p → n = num2 p.stated 0 →
    ((∀ r, s.books.invoice? n = some r → r.state ≠ .closed) →
      exec (.releaseInvoice p) s = .next (s.answers 0x13 p .notClosed []))
    ∧ (∀ r, s.books.invoice? n = some r → r.state = .closed →
        ∃ t, exec (.releaseInvoice p) s = .next t
          ∧ t.books.invoices = s.books.invoices.filter (fun r => r.number ≠ n)
          ∧ t.books.chests = s.books.chests.filter (fun c => c.invoice ≠ n)
          ∧ t.books.sheets = s.books.sheets.filter (fun l => l.invoice ≠ n)
          ∧ (s.books.sheet? n = none → t.books.released = s.books.released)
          ∧ (s.books.sheet? n ≠ none → t.books.released = insertAsc n s.books.released)
          ∧ t.books.tx = s.books.tx.map (fun e =>
              if e.underWay ∧ e.frame.kind = 4 ∧ e.frame.invoice = n then { e with removal := .discard } else e)
          ∧ t.books.faults = (if 2 ≤ t.books.freeSlots then (s.books.clearCause .storeFull).faults else s.books.faults)
          ∧ t = { s with
              books := { s.books with invoices := t.books.invoices, chests := t.books.chests, sheets := t.books.sheets,
                                      released := t.books.released, tx := t.books.tx, faults := t.books.faults },
              filler := { s.filler with
                fill := s.filler.fill.map (fun f => if f.invoice = n then { f with freed := true } else f) },
              port := s.answered 0x13 p .ok [] }))

/-- CLOSE INVOICE: the checks in R150's order; taken, a CLOSE CALL of round 1 is queued with the packed count of the moment
and the planned count, and nothing else changes. -/
def Obligations.CloseInvoiceQueuesTheCall : Prop :=
  ∀ (p : Params) (s : State) (n : Nat), s.admits 0x12 p → n = num2 p.stated 0 →
    ((∀ r, s.books.invoice? n = some r → r.state ≠ .active) →
      exec (.closeInvoice p) s = .next (s.answers 0x12 p .notActive []))
    ∧ (∀ r, s.books.invoice? n = some r → r.state = .active →
        (r.view = .short → exec (.closeInvoice p) s = .next (s.answers 0x12 p .partialView []))
        ∧ (r.view = .whole →
          (s.filling = some n ∨ ∃ e ∈ s.books.tx, e.frame.kind = 1 ∧ e.frame.invoice = n) →
          exec (.closeInvoice p) s = .next (s.answers 0x12 p .busy []))
        ∧ (r.view = .whole → s.filling ≠ some n → (∀ e ∈ s.books.tx, e.frame.kind = 1 → e.frame.invoice ≠ n) →
          exec (.closeInvoice p) s = .next
            { s with
              books := s.books.queueFrame s.filling (.closeCall n 1 (s.books.packedCount n) r.planned),
              port := s.answered 0x12 p .ok [] }))

/-! ### Chest commands -/

/-- START CHEST: the checks in R102's order with R82's bin checks; taken, the reservation is made, the chest in progress is
set up with its targets, the claim check runs, the lane is ARMED, and the response carries the reservation number. -/
def Obligations.StartChestArmsTheLane : Prop :=
  ∀ (p : Params) (s : State) (n : Nat), s.admits 0x20 p → n = num2 p.stated 0 →
    ((s.filler.step ≠ .idle ∨ ∃ j, s.marker.job = some j ∧ j.requester = .remark) →
      exec (.startChest p) s = .next (s.answers 0x20 p .busy []))
    ∧ (s.filler.step = .idle → (∀ j, s.marker.job = some j → j.requester ≠ .remark) →
      ((∀ r, s.books.invoice? n = some r → r.state ≠ .active ∨ r.full = true) →
        exec (.startChest p) s = .next (s.answers 0x20 p .notActive []))
      ∧ (∀ r, s.books.invoice? n = some r → r.state = .active → r.full = false →
        (s.books.reservable = none → exec (.startChest p) s = .next (s.answers 0x20 p .tableFull []))
        ∧ (∀ k, s.books.reservable = some k →
          (s.weigh.reading = none → exec (.startChest p) s = .next (s.answers 0x20 p .notSteady []))
          ∧ (s.weigh.reading ≠ none →
            (∀ (pre post : List (Component × Nat)) (c : Component) (t : Nat) (st : Status),
              r.recipe.zip (targets r.target r.recipe) = pre ++ (c, t) :: post →
              (∀ d ∈ pre, s.books.binCheck d.1.bin d.2 = none) → s.books.binCheck c.bin t = some st →
              exec (.startChest p) s = .next (s.answers 0x20 p st [BitVec.ofNat 8 c.bin]))
            ∧ ((∀ d ∈ r.recipe.zip (targets r.target r.recipe), s.books.binCheck d.1.bin d.2 = none) →
              ∃ f : Fill, exec (.startChest p) s = .next
                  { s with
                    books := ({ s.books with reservation := some k, reservationCounter := k } : Books).claimCheck n,
                    filler := { s.filler with step := .armed, fill := some f, gate := .closed, flow := none },
                    port := s.answered 0x20 p .ok [BitVec.ofNat 8 k] }
                ∧ f.comps.length = (targets r.target r.recipe).length
                ∧ (∀ i c t, r.recipe[i]? = some c → (targets r.target r.recipe)[i]? = some t →
                    f.comps[i]? = some (
                      { feeder := s.books.feederOf c.bin, target := t,
                        cumulative := ((targets r.target r.recipe).take (i + 1)).sum, coarseCut := none, fineCut := none,
                        settled := none, actual := 0, short := false, opened := false, fine := false } : CompState))
                ∧ f = { invoice := n, reservation := k, target := r.target, tolerance := r.tolerance,
                        tareMin := r.tareMin, tareMax := r.tareMax, recipe := r.recipe,
                        shareTolerance := r.shareTolerance, comps := f.comps, tare := none, lastNet := none,
                        topupDone := false, topupComp := none, netBefore := none, topupEnd := none, net := none,
                        serial := none, reason := none, freed := false })))))

/-- The reservation takes the counter's next number not held by an ORPHAN, while a slot is free and a number is; the bin
check follows the bin's state; the claim check queues a CLAIM when no serial is free, none is queued, ONLINE and ACTIVE. -/
def Obligations.ReservationsBinAndClaimChecks : Prop :=
  ((∀ b : Books, b.freeSlots = 0 → b.reservable = none)
  ∧ (∀ (b : Books) (k : Nat), b.reservable = some k →
      1 ≤ b.freeSlots ∧ (b.reservationCounter ≤ 255 → 1 ≤ k ∧ k ≤ 255) ∧ (∀ c ∈ b.chests, c.key ≠ .orphan k))
  ∧ (∀ (b : Books) (j : Nat), 1 ≤ b.freeSlots → b.reservationCounter ≤ 255 → j < 255 →
      (∀ i < j, ∃ c ∈ b.chests, c.key = .orphan ((b.reservationCounter + i) % 255 + 1)) →
      (∀ c ∈ b.chests, c.key ≠ .orphan ((b.reservationCounter + j) % 255 + 1)) →
      b.reservable = some ((b.reservationCounter + j) % 255 + 1))
  ∧ (∀ b : Books, (∀ k, 1 ≤ k → k ≤ 255 → ∃ c ∈ b.chests, c.key = .orphan k) → b.reservable = none)
  ∧ (∀ (b : Books) (n target : Nat),
      (((b.bin n).state = .empty ∨ (b.bin n).state = .withdrawn) → b.binCheck n target = some .binUnavailable)
      ∧ ((b.bin n).state = .unknown → b.binCheck n target = none)
      ∧ (∀ q, ((b.bin n).state = .stocked ∨ (b.bin n).state = .low) → (b.bin n).remaining = some q →
          b.binCheck n target = if q < (target + 5) / 10 then some .binShort else none)))
  ∧ (∀ (b : Books) (n : Nat),
    (b.invoice? n = none → b.claimCheck n = b)
    ∧ (∀ r, b.invoice? n = some r →
        (r.free ≠ [] ∨ (∃ e ∈ b.tx, e.frame.kind = 4 ∧ e.frame.invoice = n) ∨ b.station ≠ .online ∨ r.state ≠ .active →
          b.claimCheck n = b)
        ∧ (r.free = [] → (∀ e ∈ b.tx, e.frame.kind = 4 → e.frame.invoice ≠ n) → b.station = .online →
            r.state = .active →
            (r.high < r.ceiling →
              b.claimCheck n = b.queueFrame none (.claim n r.planned (r.high + 1) (min b.blockSize (r.ceiling - r.high))))
            ∧ (r.ceiling ≤ r.high → b.claimCheck n = b.raiseNotice .serialsExhausted (some n) none none))))

/-- ABORT CHEST: refused outside ARMED to TOPUP; a chest that has drawn goes to REJECT with ABORTED on its settled actuals;
one that has not frees its reservation and ends, ARMED to IDLE, any other step to CLEAR. -/
def Obligations.AbortChestEndsTheFill : Prop :=
  ∀ (p : Params) (s : State), s.admits 0x21 p →
    (s.filler.step ∈ ([.idle, .check, .accept, .reject, .mark, .clear] : List FillStep) →
      exec (.abortChest p) s = .next (s.answers 0x21 p .notActive []))
    ∧ (∀ f, s.filler.fill = some f →
        s.filler.step ∉ ([.idle, .check, .accept, .reject, .mark, .clear] : List FillStep) →
        ((∃ c ∈ f.comps, c.opened = true) → ∃ t, exec (.abortChest p) s = .next t
          ∧ t = { s.cutFill.enterReject .aborted with port := s.answered 0x21 p .ok [] })
        ∧ ((∀ c ∈ f.comps, c.opened = false) → s.filler.step = .armed →
            exec (.abortChest p) s = .next
              { s with
                books := s.books.dropReservation.chestLost f,
                weigh := s.withdrawLane.weigh,
                filler := { s.filler with step := .idle, fill := none, gate := .closed, flow := none, rejectTimer := 0 },
                port := s.answered 0x21 p .ok [] })
        ∧ ((∀ c ∈ f.comps, c.opened = false) → s.filler.step ≠ .armed →
            exec (.abortChest p) s = .next
              { (s.cutFill.setBooks (s.books.dropReservation.chestLost f)).enterClear with
                port := s.answered 0x21 p .ok [] }))

/-- What the lane does as a step is entered, as a fill is cut short, as it enters REJECT and as it enters CLEAR, and what
the Invoice Table does as it is told that a fill has ended: nothing, once the record has been freed.  That such a fill is
in progress for no record opened again under its number is the model's choice (log 44); that HALT takes CLEAR to IDLE under
HOLD too, and that under HOLD CLEAR is entered without a request, is its reading (log 21). -/
def Obligations.LaneCutsRejectsAndClears : Prop :=
  (∀ (s : State) (f : Fill), s.filler.fill = some f →
    s.cutFill = { s with
      weigh := (if ∃ q, s.weigh.request = some q ∧ q.who ≠ .zeroScale then { s.weigh with request := none, timer := 0 }
        else s.weigh),
      filler := { s.filler with gate := .closed, fill := some (f.cut s.filler.step) } })
  ∧ (∀ (f : Fill) (k : Nat) (c : CompState), 1 ≤ k → f.comps[k - 1]? = some c →
      (∀ st : FillStep, st = .feed k ∨ st = .settle k →
        f.cut st = { f with comps := f.comps.set (k - 1) { c with
          actual := f.lastNet.getD 0 - (if k = 1 then 0 else ((f.comps[k - 2]?).bind (·.settled)).getD 0) } })
      ∧ (f.topupComp = some k →
        f.cut .topup = { f with comps := f.comps.set (k - 1) { c with
          actual := c.actual + (f.lastNet.getD 0 - f.netBefore.getD 0) } }))
  ∧ (∀ (f : Fill) (st : FillStep), st ∈ ([.idle, .armed, .tare, .check, .accept, .reject, .mark, .clear] : List FillStep) →
      f.cut st = f)
  ∧ (∀ (s : State) (f : Fill) (why : RejectReason), s.filler.fill = some f →
      s.enterReject why = { s with
        books := ((if ∃ c ∈ f.comps, c.opened = true
            then (s.books.raiseNotice .chestRejected (some f.invoice) none (some why.num)).queueFrame none
              (.chest f.invoice ⟨0, 0, 0, 0, 0, f.draws⟩)
            else s.books.raiseNotice .chestRejected (some f.invoice) none (some why.num)).dropReservation).chestLost f,
        weigh := s.withdrawLane.weigh,
        filler := { s.filler with step := .reject, fill := some { f with reason := some why }, gate := .closed,
                                  flow := none, rejectTimer := 0 } })
  ∧ (∀ s : State,
      (s.pins.chest = true → s.enterClear = s.toStep .clear)
      ∧ (s.pins.chest = false → s.books.station = .halt → s.enterClear = s.goIdle)
      ∧ (s.pins.chest = false → s.books.station ≠ .halt → s.pins.hold = true → s.enterClear = s.toStep .clear)
      ∧ (s.pins.chest = false → s.books.station ≠ .halt → s.pins.hold = false →
          s.enterClear = { s.toStep .clear with
            weigh := { s.weigh with request := some ⟨.capture, s.books.time, false⟩, timer := 0 } }))
  ∧ (∀ (s : State) (st : FillStep) (who : Requester),
      s.toStep st = { s with filler := { s.filler with step := st, gate := .closed, flow := none } }
      ∧ s.goIdle = { s with filler :=
          { s.filler with step := .idle, fill := none, gate := .closed, flow := none, rejectTimer := 0 } }
      ∧ s.withdrawLane = { s with weigh :=
          if ∃ q, s.weigh.request = some q ∧ q.who ≠ .zeroScale then { s.weigh with request := none, timer := 0 }
          else s.weigh }
      ∧ (s.pins.hold = true → s.askSettle who = s)
      ∧ (s.pins.hold = false → s.askSettle who = { s with weigh :=
          { s.weigh with request := some ⟨who, s.books.time, false⟩, timer := 0 } }))
  ∧ (∀ (b : Books) (f : Fill), b.chestLost f = if f.freed then b else b.fillLost f.invoice)
  ∧ (∀ (s : State) (n : Nat), s.filling = some n ↔
      s.filler.step ∉ ([.idle, .accept, .reject, .mark, .clear] : List FillStep)
        ∧ ∃ f, s.filler.fill = some f ∧ f.invoice = n ∧ f.freed = false)
  ∧ (∀ (b : Books) (n : Nat),
      b.fillLost n = (b.modifyInvoice n (fun r => if r.state = .closing
        then { r with free := [], surrendered := r.surrendered + r.free.length } else r)).fillEnded n
      ∧ (b.invoice? n = none → b.fillEnded n = b)
      ∧ (∀ r, b.invoice? n = some r →
          ((r.state ≠ .closing ∨ r.role = none) → b.fillEnded n = b)
          ∧ (r.state = .closing → r.role = some .peer → b.fillEnded n = b.queueTally n 2 0)
          ∧ (r.state = .closing → r.role = some .closer → ∀ cs : List Chest,
              cs = b.chests.filter (fun c => c.invoice = n && c.serial?.isSome && c.origin = .own) →
              b.fillEnded n = b.recordAnswer n
                { station := b.straps.station, inProgress := 0, packed := cs.length, free := min 16 r.surrendered,
                  net := (cs.map (·.net)).sum })))

/-- VOID CHEST and RECORD SAMPLE: the checks in their order; a void frees the record, its serial back on the list when at or
below the ceiling; a sample is written to its record; each queues its frame. -/
def Obligations.VoidChestAndRecordSample : Prop :=
  (∀ (p : Params) (s : State) (n k : Nat), s.admits 0x22 p → n = num2 p.stated 0 → k = byteAt p.stated 2 →
    ((∀ r, s.books.invoice? n = some r → r.state ≠ .active) ∨ s.books.chest? n k = none →
      exec (.voidChest p) s = .next (s.answers 0x22 p .notActive []))
    ∧ (∀ r c, s.books.invoice? n = some r → r.state = .active → s.books.chest? n k = some c →
        (c.origin = .heard → exec (.voidChest p) s = .next (s.answers 0x22 p .notOwn []))
        ∧ (c.origin = .own → k ≤ r.ceiling → 16 ≤ r.free.length →
            exec (.voidChest p) s = .next (s.answers 0x22 p .listFull []))
        ∧ (c.origin = .own → (r.ceiling < k ∨ r.free.length < 16) →
            exec (.voidChest p) s = .next
              { s with
                books := ((((s.books.dropChests (fun c => c.invoice = n && c.key = .packed k)).modifyInvoice n
                  (fun r => if k ≤ r.ceiling then { r with free := insertAsc k r.free } else r)).evalFull n).queueFrame
                    none (.void n k)),
                port := s.answered 0x22 p .ok [] })))
  ∧ (∀ (p : Params) (s : State) (n k w : Nat), s.admits 0x23 p → n = num2 p.stated 0 → k = byteAt p.stated 2 → w = byteAt p.stated 3 →
    ((w = 0 ∨ 50 < w) → exec (.recordSample p) s = .next (s.answers 0x23 p .range []))
    ∧ (1 ≤ w → w ≤ 50 →
        (((∀ r, s.books.invoice? n = some r → r.state ≠ .active ∧ r.state ≠ .closing) ∨ s.books.chest? n k = none) →
          exec (.recordSample p) s = .next (s.answers 0x23 p .notActive []))
        ∧ (∀ r c, s.books.invoice? n = some r → (r.state = .active ∨ r.state = .closing) →
            s.books.chest? n k = some c →
            (c.sample ≠ none → exec (.recordSample p) s = .next (s.answers 0x23 p .sampled []))
            ∧ (c.sample = none → c.net < w → exec (.recordSample p) s = .next (s.answers 0x23 p .range []))
            ∧ (c.sample = none → w ≤ c.net →
                exec (.recordSample p) s = .next
                  { s with
                    books := (s.books.putChest { c with sample := some w }).queueFrame none (.sample n k w),
                    port := s.answered 0x23 p .ok [] }))))

/-- REMARK: the checks in R136's order; taken, a mark starts: the job carries the two lines of the records, position 1 and
its used rows, and the first SHIFT runs with the bits of column 1 in chain order on DATA-OUT; what the head's path holds
until DATA-IN has brought the ready bits is free (log 38).  The lines, the columns and the used rows follow the text and
the glyph table. -/
def Obligations.RemarkStartsAMark : Prop :=
  (∀ (p : Params) (s : State) (n k : Nat), s.admits 0x24 p → n = num2 p.stated 0 → k = byteAt p.stated 2 →
    (s.marker.head = none → exec (.remark p) s = .next (s.answers 0x24 p .notActive []))
    ∧ (s.marker.head ≠ none → (s.filler.step ≠ .idle ∨ s.marker.chain ≠ .headIdle ∨ s.pins.chest = true) →
        exec (.remark p) s = .next (s.answers 0x24 p .busy []))
    ∧ (∀ h, s.marker.head = some h → s.filler.step = .idle → s.marker.chain = .headIdle → s.pins.chest = false →
        (s.books.chest? n k = none → exec (.remark p) s = .next (s.answers 0x24 p .notActive []))
        ∧ (∀ c, s.books.chest? n k = some c →
            (c.origin = .heard → exec (.remark p) s = .next (s.answers 0x24 p .notOwn []))
            ∧ (c.origin = .own → (c.mark = .good ∨ c.mark = .none) →
                exec (.remark p) s = .next (s.answers 0x24 p .notActive []))
            ∧ (∀ r, c.origin = .own → (c.mark = .pending ∨ c.mark = .defect) → s.books.invoice? n = some r →
                ∃ (j : Job) (path : BitVec 32), exec (.remark p) s = .next
                    { s with
                      marker := { s.marker with
                        chain := .shift, job := some j, path := path, unknown := s.marker.unknown + 1,
                        sends := (List.range 32).map (fun i => (if h.activeLow then ~~~(columnOf j 1)
                          else columnOf j 1).getLsbD (if h.nozzle32First then 31 - i else i)) },
                      port := s.answered 0x24 p .ok [] }
                  ∧ j = { invoice := n, serial := k, requester := .remark,
                          line1 := (r.mark ++ [0x20] ++ r.grade).take 20, line2 := line2Of n k c.net c.gross,
                          markLength := 12 * max j.line1.length j.line2.length - 2,
                          positions := 12 * max j.line1.length j.line2.length + 10, position := 1, late := 0,
                          usedRows := nozzleSet (markUses j.line1 j.line2), ready := none, defect := false }))))
  ∧ (∀ (a b c d e f net gross : Nat), a < 10 → b < 10 → c < 10 → d < 10 → e < 10 → f < 10 →
      line2Of (1000 * a + 100 * b + 10 * c + d) (10 * e + f) net gross
        = ([a, b, c, d].map (fun x => BitVec.ofNat 8 (0x30 + x)) ++ [0x2D]
          ++ [e, f].map (fun x => BitVec.ofNat 8 (0x30 + x)) ++ [0x20, 0x4E] ++ weightText net ++ [0x20, 0x47]
          ++ weightText gross).take 20)
  ∧ (∀ v d : Nat, d < 10 →
      weightText d = [0x30, 0x2E, BitVec.ofNat 8 (0x30 + d)]
      ∧ (1 ≤ v → v < 1000000 → weightText (10 * v + d)
          = (Nat.digits 10 v).reverse.map (fun x => BitVec.ofNat 8 (0x30 + x)) ++ [0x2E, BitVec.ofNat 8 (0x30 + d)]))
  ∧ (∀ g : Byte × List Nat,
      (g ∈ ([(0x30, [14, 17, 19, 21, 25, 17, 14]), (0x31, [4, 12, 4, 4, 4, 4, 14]), (0x32, [14, 17, 1, 2, 4, 8, 31]),
          (0x33, [31, 2, 4, 2, 1, 17, 14]), (0x34, [2, 6, 10, 18, 31, 2, 2]), (0x35, [31, 16, 30, 1, 1, 17, 14]),
          (0x36, [6, 8, 16, 30, 17, 17, 14]), (0x37, [31, 1, 2, 4, 8, 8, 8]), (0x38, [14, 17, 17, 14, 17, 17, 14]),
          (0x39, [14, 17, 17, 15, 1, 2, 12]), (0x20, [0, 0, 0, 0, 0, 0, 0]), (0x2D, [0, 0, 0, 31, 0, 0, 0]),
          (0x2E, [0, 0, 0, 0, 0, 12, 12]), (0x2F, [1, 1, 2, 4, 8, 16, 16])] : List (Byte × List Nat))
        ∨ g ∈ ([(0x41, [14, 17, 17, 17, 31, 17, 17]), (0x42, [30, 17, 17, 30, 17, 17, 30]),
          (0x43, [14, 17, 16, 16, 16, 17, 14]), (0x44, [28, 18, 17, 17, 17, 18, 28]),
          (0x45, [31, 16, 16, 30, 16, 16, 31]), (0x46, [31, 16, 16, 30, 16, 16, 16]),
          (0x47, [14, 17, 16, 23, 17, 17, 15]), (0x48, [17, 17, 17, 31, 17, 17, 17]), (0x49, [14, 4, 4, 4, 4, 4, 14]),
          (0x4A, [7, 2, 2, 2, 2, 18, 12]), (0x4B, [17, 18, 20, 24, 20, 18, 17]), (0x4C, [16, 16, 16, 16, 16, 16, 31]),
          (0x4D, [17, 27, 21, 21, 17, 17, 17])] : List (Byte × List Nat))
        ∨ g ∈ ([(0x4E, [17, 17, 25, 21, 19, 17, 17]), (0x4F, [14, 17, 17, 17, 17, 17, 14]),
          (0x50, [30, 17, 17, 30, 16, 16, 16]), (0x51, [14, 17, 17, 17, 21, 18, 13]),
          (0x52, [30, 17, 17, 30, 20, 18, 17]), (0x53, [15, 16, 16, 14, 1, 1, 30]), (0x54, [31, 4, 4, 4, 4, 4, 4]),
          (0x55, [17, 17, 17, 17, 17, 17, 14]), (0x56, [17, 17, 17, 17, 17, 10, 4]),
          (0x57, [17, 17, 17, 21, 21, 21, 10]), (0x58, [17, 17, 10, 4, 10, 17, 17]), (0x59, [17, 17, 17, 10, 4, 4, 4]),
          (0x5A, [31, 1, 2, 4, 8, 16, 31])] : List (Byte × List Nat))) →
      glyphRows g.1 = g.2)
  ∧ (∀ (j : Job) (p n : Nat), 1 ≤ p → 1 ≤ n → n ≤ 32 →
      ((columnOf j p).getLsbD (n - 1) = true ↔ p ≤ j.markLength ∧ ∃ (c : Byte) (i x y : Nat), x < 5 ∧ y < 7
        ∧ (p = 12 * i + 2 * x + 1 ∨ p = 12 * i + 2 * x + 2)
        ∧ ((j.line1[i]? = some c ∧ (n = 2 * y + 1 ∨ n = 2 * y + 2))
          ∨ (j.line2[i]? = some c ∧ (n = 18 + 2 * y + 1 ∨ n = 18 + 2 * y + 2)))
        ∧ ((glyphRows c)[y]?.getD 0).testBit (4 - x) = true))
  ∧ (∀ (line₁ line₂ : List Byte) (n : Nat), 1 ≤ n → n ≤ 32 →
      ((nozzleSet (markUses line₁ line₂)).getLsbD (n - 1) = true ↔ ∃ (c : Byte) (y : Nat), y < 7
        ∧ ((c ∈ line₁ ∧ (n = 2 * y + 1 ∨ n = 2 * y + 2)) ∨ (c ∈ line₂ ∧ (n = 18 + 2 * y + 1 ∨ n = 18 + 2 * y + 2)))
        ∧ (glyphRows c)[y]?.getD 0 ≠ 0))

/-- ZERO SCALE: refused BUSY unless the lane is IDLE with CHEST low; taken, it waits with a settle request and no response;
5,000 ms after the request it ends NOT_STEADY with the request withdrawn; a row sent earlier lets the missing time pass by
the model's choice (log 3). -/
def Obligations.ZeroScaleWaitsForASettle : Prop :=
  (∀ (p : Params) (s : State), s.admits 0x33 p →
    ((s.filler.step ≠ .idle ∨ s.pins.chest = true) →
      exec (.zeroScale p) s = .next (s.answers 0x33 p .busy []))
    ∧ (s.filler.step = .idle → s.pins.chest = false →
      exec (.zeroScale p) s = .next
        { s with
          weigh := { s.weigh with request := some ⟨.zeroScale, s.books.time, false⟩, timer := 0 },
          port := { busy := true, ready := false, command := some 0x33, reply := none, buffer := none,
                    miso := s.misoBytes p } }))
  ∧ (∀ (s : State) (q : SettleRequest) (code : Byte) (d : Nat), s.weigh.request = some q → q.who = .zeroScale →
      d = msUntil (q.time + 5000) s.books.time → (s.elapse d).port.command = some code →
      exec .zeroScaleTimeout s = .next
        { s.elapse d with
          weigh := { (s.elapse d).weigh with request := none, timer := 0 },
          port := { (s.elapse d).port with reply := some ⟨code, .notSteady, []⟩ } })

/-- BIN FILL, BIN EMPTY and BIN WITHDRAW: RANGE for a bin outside 1 to 64; else one BIN frame is queued, filled from the
command and the record, and the record does not change. -/
def Obligations.BinCommandsQueueOneFrame : Prop :=
  ∀ (p : Params) (s : State) (n : Nat), n = byteAt p.stated 0 →
    ((n = 0 ∨ 64 < n) →
      (s.admits 0x30 p → exec (.binFill p) s = .next (s.answers 0x30 p .range []))
      ∧ (s.admits 0x31 p → exec (.binEmpty p) s = .next (s.answers 0x31 p .range []))
      ∧ (s.admits 0x32 p → exec (.binWithdraw p) s = .next (s.answers 0x32 p .range [])))
    ∧ (1 ≤ n → n ≤ 64 →
      (s.admits 0x30 p → exec (.binFill p) s = .next
        { s with books := s.books.queueFrame none (.bin 0 n 1 (num2 p.stated 1) (num2 p.stated 3)),
                 port := s.answered 0x30 p .ok [] })
      ∧ (s.admits 0x31 p → exec (.binEmpty p) s = .next
        { s with books := s.books.queueFrame none (.bin 0 n 2 ((s.books.bin n).batch.getD 0) 0),
                 port := s.answered 0x31 p .ok [] })
      ∧ (s.admits 0x32 p → exec (.binWithdraw p) s = .next
        { s with books := s.books.queueFrame none
                   (.bin 0 n 3 ((s.books.bin n).batch.getD 0) ((s.books.bin n).remaining.getD 0)),
                 port := s.answered 0x32 p .ok [] }))

/-! ### Reads -/

/-- READ INVOICE gives the record with the packed counts of the moment, its text padding free; NOT_ACTIVE when absent.
That the yielded count of an absent sent claim is sent as 0 is the model's choice (log 53). -/
def Obligations.ReadInvoiceGivesTheRecord : Prop :=
  ∀ (p : Params) (s : State) (n : Nat), s.admits 0x40 p → n = num2 p.stated 0 →
    (s.books.invoice? n = none → exec (.readInvoice p) s = .next (s.answers 0x40 p .notActive []))
    ∧ (∀ r, s.books.invoice? n = some r →
        ∃ pad₁ pad₂ : List Byte, pad₁.length = 8 - r.mark.length ∧ pad₂.length = 6 - r.grade.length
          ∧ exec (.readInvoice p) s = .next
            { s with
              port := s.answered 0x40 p .ok
                (be2 n ++ be1 r.mark.length ++ r.mark ++ pad₁ ++ be1 r.grade.length ++ r.grade ++ pad₂ ++ be1 r.planned
                  ++ be2 r.target ++ be1 r.tolerance ++ be2 r.tareMin ++ be2 r.tareMax ++ be1 r.recipe.length
                  ++ (r.recipe.map (fun c => be1 c.bin ++ be2 c.share)).flatten
                  ++ List.replicate (3 * (4 - r.recipe.length)) 0 ++ be1 r.shareTolerance ++ be1 r.ceiling
                  ++ be1 r.state.num ++ be1 (CloseRole.num r.role) ++ be1 r.view.num ++ be1 r.phase.num
                  ++ be1 (if r.recount then 1 else 0) ++ be1 (if r.full then 1 else 0) ++ be1 r.high
                  ++ be1 (s.books.packedCount n) ++ be1 (s.books.ownPackedCount n)
                  ++ be1 r.free.length ++ r.free.map (BitVec.ofNat 8) ++ List.replicate (16 - r.free.length) 0
                  ++ (match r.sent with
                      | none => List.replicate 11 0
                      | some c => be1 c.first ++ be1 c.count ++ be1 c.yielded.length ++ c.yielded.map (BitVec.ofNat 8)
                          ++ List.replicate (8 - c.yielded.length) 0)
                  ++ be1 r.surrendered ++ be1 r.participants.length ++ r.participants.map (BitVec.ofNat 8)
                  ++ List.replicate (31 - r.participants.length) 0),
              spare := s.spare + 64 })

/-- READ CHEST: RANGE for a wrong selector or number, NOT_ACTIVE without the invoice, NOT_PRESENT without a record at or
above the number; else the record of the lowest key there.  READ BIN: RANGE outside 1 to 64, else the bin's record. -/
def Obligations.ReadChestAndBinGiveTheRecord : Prop :=
  (∀ (p : Params) (s : State) (n k : Nat), s.admits 0x41 p → n = num2 p.stated 0 → k = byteAt p.stated 3 →
    (¬ ((byteAt p.stated 2 = 1 ∧ 1 ≤ k ∧ k ≤ 99) ∨ (byteAt p.stated 2 = 2 ∧ 1 ≤ k)) →
      exec (.readChest p) s = .next (s.answers 0x41 p .range []))
    ∧ (∀ keyOf : Nat → ChestKey,
        (byteAt p.stated 2 = 1 ∧ 1 ≤ k ∧ k ≤ 99 ∧ keyOf = .packed) ∨ (byteAt p.stated 2 = 2 ∧ 1 ≤ k ∧ keyOf = .orphan) →
        (s.books.invoice? n = none → exec (.readChest p) s = .next (s.answers 0x41 p .notActive []))
        ∧ (s.books.invoice? n ≠ none →
          ((∀ c ∈ s.books.chests, c.invoice = n → ∀ x, c.key = keyOf x → x < k) →
            exec (.readChest p) s = .next (s.answers 0x41 p .notPresent []))
          ∧ (∀ c x, c ∈ s.books.chests → c.invoice = n → c.key = keyOf x → k ≤ x →
              (∀ d ∈ s.books.chests, d.invoice = n → ∀ y, d.key = keyOf y → k ≤ y → x < y ∨ d = c) →
              exec (.readChest p) s = .next (s.answers 0x41 p .ok
                (be2 n ++ be1 (if byteAt p.stated 2 = 1 then x else 0) ++ be1 (if byteAt p.stated 2 = 2 then x else 0) ++ be1 c.station
                  ++ be1 (if c.origin = .own then 1 else 2) ++ be1 (byteAt p.stated 2) ++ be2 c.gross ++ be2 c.tare ++ be2 c.net
                  ++ be1 (c.sample.getD 0) ++ be1 (if c.offBlend then 1 else 0) ++ be1 c.mark.num
                  ++ be1 (c.conflict.getD 0) ++ be1 c.draws.length
                  ++ (c.draws.map (fun d => be1 d.bin ++ be2 d.quantity)).flatten
                  ++ List.replicate (3 * (4 - c.draws.length)) 0))))))
  ∧ (∀ (p : Params) (s : State) (n : Nat), s.admits 0x42 p → n = byteAt p.stated 0 →
    ((n = 0 ∨ 64 < n) → exec (.readBin p) s = .next (s.answers 0x42 p .range []))
    ∧ (1 ≤ n → n ≤ 64 → ∃ pad₁ pad₂ : List Byte, pad₁.length = 2 ∧ pad₂.length = 2
        ∧ exec (.readBin p) s = .next
          { s with
            port := s.answered 0x42 p .ok
              (be1 (s.books.bin n).state.num ++ ((s.books.bin n).batch.map be2).getD pad₁
                ++ ((s.books.bin n).remaining.map be2).getD pad₂ ++ be2 (s.books.bin n).overdraw
                ++ be1 (s.books.feederOf n)),
            spare := s.spare + 64 }))

/-- READ LOT SHEET: NOT_ACTIVE without the invoice, NO_LOT without a sheet, RANGE for a part outside 1 to 4 or a line
outside the sheet; else the part asked for.  Once RELEASE INVOICE has freed its lot sheet an invoice answers NO_LOT until
its number is opened again: R49 before R163 is the model's reading (log 43). -/
def Obligations.ReadLotSheetGivesThePart : Prop :=
  ∀ (p : Params) (s : State) (n : Nat), s.admits 0x43 p → n = num2 p.stated 0 →
    (s.books.invoice? n = none → n ∉ s.books.released →
      exec (.readLotSheet p) s = .next (s.answers 0x43 p .notActive []))
    ∧ (s.books.invoice? n = none → n ∈ s.books.released →
        exec (.readLotSheet p) s = .next (s.answers 0x43 p .noLot []))
    ∧ (s.books.invoice? n ≠ none → s.books.sheet? n = none →
        exec (.readLotSheet p) s = .next (s.answers 0x43 p .noLot []))
    ∧ (∀ l, s.books.invoice? n ≠ none → s.books.sheet? n = some l →
        ((byteAt p.stated 2 = 0 ∨ 4 < byteAt p.stated 2 ∨ (byteAt p.stated 2 = 4 ∧ (byteAt p.stated 3 = 0 ∨ l.lines.length < byteAt p.stated 3))) →
          exec (.readLotSheet p) s = .next (s.answers 0x43 p .range []))
        ∧ (byteAt p.stated 2 = 1 → ∃ pad₁ pad₂ : List Byte,
            pad₁.length = 8 - l.mark.length ∧ pad₂.length = 6 - l.grade.length
            ∧ exec (.readLotSheet p) s = .next
              { s with
                port := s.answered 0x43 p .ok
                  (be2 n ++ be1 l.mark.length ++ l.mark ++ pad₁ ++ be1 l.grade.length ++ l.grade ++ pad₂ ++ be1 l.planned
                    ++ be1 l.packed ++ be1 l.status.num ++ be3 l.gross ++ be3 l.tare ++ be3 l.net ++ be3 l.samples
                    ++ be3 (l.net - l.samples) ++ be1 l.offBlend ++ be1 l.unmarked ++ be1 l.conflicts
                    ++ be1 (if l.closerInProgress then 1 else 0) ++ be2 l.reportedPacked ++ be4 l.reportedNet
                    ++ be2 l.reportedSurrendered ++ be1 l.missing.length ++ be1 l.unconfirmed.length
                    ++ be1 l.inProgress.length),
                spare := s.spare + 64 })
        ∧ (byteAt p.stated 2 = 2 → exec (.readLotSheet p) s = .next
            (s.answers 0x43 p .ok (be1 l.missing.length ++ l.missing.map (BitVec.ofNat 8))))
        ∧ (byteAt p.stated 2 = 3 → exec (.readLotSheet p) s = .next
            (s.answers 0x43 p .ok (be1 l.unconfirmed.length ++ l.unconfirmed.map (BitVec.ofNat 8)
              ++ (be1 l.inProgress.length ++ l.inProgress.map (BitVec.ofNat 8)))))
        ∧ (∀ x, byteAt p.stated 2 = 4 → 1 ≤ byteAt p.stated 3 → l.lines[byteAt p.stated 3 - 1]? = some x →
            exec (.readLotSheet p) s = .next (s.answers 0x43 p .ok
              (be1 x.serial ++ be1 x.station ++ be2 x.gross ++ be2 x.tare ++ be2 x.net ++ be1 (x.sample.getD 0)
                ++ be1 ((if x.offBlend then 1 else 0) + (if x.unmarked then 2 else 0)
                  + (if x.conflict.isSome then 4 else 0))
                ++ be1 (x.conflict.getD 0)))))

/-- READ NOTICE takes out the oldest notice and returns it with the number left, which clears the cause of NOTICE_OVERFLOW
when fewer than 32 stay; on an empty queue it returns kind NONE and count 0. -/
def Obligations.ReadNoticeTakesTheOldest : Prop :=
  ∀ (p : Params) (s : State), s.admits 0x44 p →
    (s.books.notices = [] → ∃ pad₁ pad₂ : List Byte, pad₁.length = 4 ∧ pad₂.length = 2
        ∧ exec (.readNotice p) s = .next
          { s with port := s.answered 0x44 p .ok ([0] ++ pad₁ ++ [0, 0, 0, 0] ++ pad₂ ++ [0]), spare := s.spare + 64 })
    ∧ (∀ x l, s.books.notices = x :: l → ∃ pad : List Byte, pad.length = 2
        ∧ exec (.readNotice p) s = .next
          { s with
            books := (if l.length < 32 then ({ s.books with notices := l } : Books).clearCause .noticeOverflow
              else { s.books with notices := l }),
            port := s.answered 0x44 p .ok
              (be1 x.kind.num ++ be4 x.time.toNat ++ be2 (x.invoice.getD 0) ++ be1 (x.serial.getD 0)
                ++ be1 (if x.value.isSome then 1 else 0) ++ (x.value.map be2).getD pad ++ be1 l.length),
            spare := s.spare + 64 })

/-- READ FAULT, in every station state, gives the entry of the lowest code at or above the from code with the number of
entries, or code 0 and that number, and changes nothing but the port. -/
def Obligations.ReadFaultGivesTheLowestCode : Prop :=
  ∀ (p : Params) (s : State) (k : Nat), s.portFree → p.stated.length = 1 → k = byteAt p.stated 0 →
    (∀ e ∈ s.books.faults, k ≤ e.code.num →
      (∀ d ∈ s.books.faults, k ≤ d.code.num → e.code.num < d.code.num ∨ d = e) →
      exec (.readFault p) s = .next (s.answers 0x45 p .ok
        (be1 e.code.num ++ be1 e.count ++ be1 (if e.cause = .present then 1 else 2) ++ be4 e.first.toNat
          ++ be4 e.latest.toNat ++ be1 s.books.faults.length)))
    ∧ ((∀ e ∈ s.books.faults, e.code.num < k) → ∃ pad : List Byte, pad.length = 8
        ∧ exec (.readFault p) s = .next
          { s with port := s.answered 0x45 p .ok ([0, 0, 0] ++ pad ++ be1 s.books.faults.length),
                   spare := s.spare + 64 })

/-- ACK FAULT: NOT_PRESENT without an entry, CAUSE_PRESENT while its cause stands; else the entry goes, and with the last of
codes 3 to 5 gone the station returns from HALT to ONLINE.  The response carries the station state after it.  The model's
reading: refusals carry it too (log 18), and codes 1 and 2 answer CAUSE_PRESENT (log 31). -/
def Obligations.AckFaultRemovesAClearedEntry : Prop :=
  ∀ (p : Params) (s : State) (k : Nat), s.admits 0x46 p → k = byteAt p.stated 0 →
    ((∀ e ∈ s.books.faults, e.code.num ≠ k) →
      exec (.ackFault p) s = .next (s.answers 0x46 p .notPresent [BitVec.ofNat 8 s.books.station.num]))
    ∧ (∀ e ∈ s.books.faults, e.code.num = k → (∀ d ∈ s.books.faults, d.code.num = k → d = e) →
        (e.cause = .present →
          exec (.ackFault p) s = .next (s.answers 0x46 p .causePresent [BitVec.ofNat 8 s.books.station.num]))
        ∧ (e.cause = .cleared →
            (s.books.station = .halt → 3 ≤ k → k ≤ 5 →
              (∀ d ∈ s.books.faults, d.code.num ≠ k → 5 < d.code.num ∨ d.code.num < 3) →
              exec (.ackFault p) s = .next
                { s with
                  books := { s.books with faults := s.books.faults.filter (fun d => d.code.num ≠ k), station := .online },
                  port := s.answered 0x46 p .ok [0x03] })
            ∧ ((s.books.station ≠ .halt ∨ k < 3 ∨ 5 < k
                ∨ ∃ d ∈ s.books.faults, d.code.num ≠ k ∧ 3 ≤ d.code.num ∧ d.code.num ≤ 5) →
              exec (.ackFault p) s = .next
                { s with
                  books := { s.books with faults := s.books.faults.filter (fun d => d.code.num ≠ k) },
                  port := s.answered 0x46 p .ok [BitVec.ofNat 8 s.books.station.num] })))

/-- READ STATUS gives the part asked for; RANGE for a part outside 1 to 5, and for part CLOSE NOT_ACTIVE without the invoice
and NOT_PRESENT without a round.  The model's choices: the component index is 0 in TOPUP (log 45), and HOLD level 1 is
active (log 46). -/
def Obligations.ReadStatusGivesThePart : Prop :=
  ∀ (p : Params) (s : State) (n : Nat), s.admits 0x47 p → n = num2 p.stated 1 →
    ((byteAt p.stated 0 = 0 ∨ 5 < byteAt p.stated 0) → exec (.readStatus p) s = .next (s.answers 0x47 p .range []))
    ∧ (byteAt p.stated 0 = 1 → exec (.readStatus p) s = .next (s.answers 0x47 p .ok
        (be1 s.books.station.num ++ be1 (if s.books.onlineWait then 1 else 0) ++ be1 s.books.straps.station
          ++ be1 s.books.straps.rate ++ be4 s.books.time.toNat ++ be1 s.line.level.num ++ be1 s.books.tx.length
          ++ be1 s.books.notices.length ++ be1 s.books.faults.length ++ be2 s.books.freeSlots)))
    ∧ (byteAt p.stated 0 = 2 → exec (.readStatus p) s = .next (s.answers 0x47 p .ok
        (be1 s.filler.step.num ++ be1 s.filler.step.index ++ be2 ((s.filler.fill.map (·.invoice)).getD 0)
          ++ be1 ((s.filler.fill.map (·.reservation)).getD 0) ++ be1 (if s.pins.hold then 1 else 0)
          ++ be1 (if s.filler.remembered then 1 else 0) ++ be2 (s.inflight 1) ++ be2 (s.inflight 2)
          ++ be2 (s.inflight 3) ++ be2 (s.inflight 4))))
    ∧ (byteAt p.stated 0 = 3 → ∃ pad : List Byte, pad.length = 3 ∧ exec (.readStatus p) s = .next
        { s with
          port := s.answered 0x47 p .ok
            (be1 (if s.weigh.reading = none then 0 else 1) ++ beSigned3 ((s.weigh.reading.map (·.weight)).getD 0)
              ++ be1 (if (s.weigh.reading.map (·.isOver)).getD false then 1 else 0)
              ++ be1 (if s.weigh.steady then 1 else 0) ++ be1 ((s.weigh.request.map (fun q => q.who.num)).getD 0)
              ++ (s.weigh.scale.map (fun sc => beSigned3 sc.zero)).getD pad),
          spare := s.spare + 64 })
    ∧ (byteAt p.stated 0 = 4 → s.marker.job = none → ∃ pad : List Byte, pad.length = 5 ∧ exec (.readStatus p) s = .next
        { s with
          port := s.answered 0x47 p .ok (be1 s.marker.chain.num ++ [0, 0, 0, 0, 0, 0] ++ pad),
          spare := s.spare + 64 })
    ∧ (∀ j, byteAt p.stated 0 = 4 → s.marker.job = some j → ∃ pad : List Byte, pad.length = 4
        ∧ exec (.readStatus p) s = .next
          { s with
            port := s.answered 0x47 p .ok
              (be1 s.marker.chain.num ++ be1 (if j.requester = .fill then 1 else 2) ++ be2 j.invoice ++ be1 j.serial
                ++ be1 j.position ++ be1 j.positions ++ be1 (if j.defect then 1 else 0)
                ++ (j.ready.map (fun r => be4 r.toNat)).getD pad),
            spare := s.spare + 64 })
    ∧ (byteAt p.stated 0 = 5 →
        (s.books.invoice? n = none → exec (.readStatus p) s = .next (s.answers 0x47 p .notActive []))
        ∧ (s.books.invoice? n ≠ none →
          (s.books.round? n = none → exec (.readStatus p) s = .next (s.answers 0x47 p .notPresent []))
          ∧ (∀ d, s.books.round? n = some d → exec (.readStatus p) s = .next (s.answers 0x47 p .ok
              (be1 d.number ++ (match d.phase with
                | .window e => be1 1 ++ be2 (msUntil e s.books.time)
                | .callQueued => be1 2 ++ be2 0
                | .extension e => be1 3 ++ be2 (msUntil e s.books.time))
                ++ be1 d.extensions ++ be1 d.answers.length)))))

/-! ### The shed line -/

/-- The line goes IDLE by 176 recessive samples, HELD with LINE_HELD by 384 dominant ones, and BUSY by a confirmed start: a
bit of three samples' majority, after three recessive samples; a false start leaves it IDLE, and a candidate whose ticks
have not all come is held in check till they have.  In IDLE the samples move the runs.  At IDLE lost framing raises VIEW_LOST with a stale request, and a set online wait is met.  That the start row comes
in IDLE alone, and may end within a start candidate, is the model's convention (log 7, 52), and that LINE_IDLE comes
whatever the run stands at its choice (log 48). -/
def Obligations.LineStatesFollowTheRuns : Prop :=
  (∀ s : State, s.inReset = false → s.line.level ≠ .idle → s.line.role ≠ .sender →
    ∀ t : State, t = { s with
        line := { s.line with level := .idle, recessiveRun := 176, dominantRun := 0, role := .none,
                              assembler := .empty, lost := false, candidate := [] },
        books := (if (s.line.lost = true ∨ s.line.role = .receiver true)
            ∧ (s.books.station = .online ∨ s.books.station = .halt)
          then ((s.books.clearCause .lineHeld).raiseFault .viewLost).staleRequest
          else s.books.clearCause .lineHeld) } →
      (t.books.onlineWait = false → exec .lineIdle s = .next t)
      ∧ (t.books.onlineWait = true → exec .lineIdle s = .next t.goOnline))
  ∧ (∀ s : State, s.inReset = false → s.line.level = .busy → s.line.role ≠ .sender →
      exec .lineHeld s = .next { s with
        line := { s.line with level := .held, recessiveRun := 0, dominantRun := 384, role := .none, assembler := .empty,
                              lost := s.line.lost || decide (s.line.role = .receiver true) },
        books := s.books.raiseFault .lineHeld })
  ∧ (∀ (s : State) (m : Nat) (ticks : BitVec 11) (samples : List Bool) (l : Line), s.line.level = .idle →
      s.line.candidate = [] → ticks.getLsbD 0 = false →
      samples = List.replicate m true ++ (List.range 11).map (fun i => ticks.getLsbD i) → l = s.line.pass samples →
      (3 ≤ s.line.recessiveRun + m → levelOf ticks = false → exec (.startConfirmed samples) s = .next { s with line :=
        { l with
          level := .busy, role := .receiver (s.books.station = .online || s.books.station = .halt),
          assembler := { Assembler.empty with bits := [false] }, slot := .none } })
      ∧ (3 ≤ s.line.recessiveRun + m → levelOf ticks = true →
          exec (.startConfirmed samples) s = .next { s with line := l })
      ∧ (s.line.recessiveRun + m < 3 →
          ∃ c, exec (.startConfirmed samples) s = .next { s with line := { l with candidate := c } }
            ∧ ((∀ i < 8, ticks.getLsbD i = true → ticks.getLsbD (i + 1) = true → ticks.getLsbD (i + 2) = true →
                ticks.getLsbD (i + 3) = true) → c = [])))
  ∧ (∀ (s : State) (m : Nat) (ticks samples : List Bool), s.line.level = .idle → s.line.candidate = [] →
      samples = List.replicate m true ++ ticks → (ticks = [] ∨ 3 ≤ s.line.recessiveRun + m) → ticks.length ≤ 10 →
      ticks.head? ≠ some true →
      exec (.startConfirmed samples) s = .next { s with line := { s.line.pass samples with candidate := ticks } })
  ∧ (∀ (s : State) (ticks : BitVec 11) (samples : List Bool) (l : Line), s.line.level = .idle → s.line.candidate ≠ [] →
      samples ≠ [] → s.line.candidate ++ samples = (List.range 11).map (fun i => ticks.getLsbD i) →
      l = { s.line.pass samples with candidate := [] } →
      (levelOf ticks = false → exec (.startConfirmed samples) s = .next { s with line :=
        { l with
          level := .busy, role := .receiver (s.books.station = .online || s.books.station = .halt),
          assembler := { Assembler.empty with bits := [false] }, slot := .none } })
      ∧ (levelOf ticks = true → exec (.startConfirmed samples) s = .next { s with line := l }))
  ∧ (∀ (s : State) (samples : List Bool), s.line.level = .idle → s.line.candidate ≠ [] →
      s.line.candidate.length + samples.length ≤ 10 → exec (.startConfirmed samples) s = .next
        { s with line := { s.line.pass samples with candidate := s.line.candidate ++ samples } })
  ∧ (∀ (s : State) (samples : List Bool), s.line.level ≠ .idle → exec (.startConfirmed samples) s = .next s)
  ∧ (∀ (l : Line) (samples : List Bool), l.pass samples = { l with
      recessiveRun := trailing true samples + if ∀ x ∈ samples, x = true then l.recessiveRun else 0,
      dominantRun := trailing false samples + if ∀ x ∈ samples, x = false then l.dominantRun else 0 })
  ∧ (∀ (w : Nat) (ticks : BitVec w), levelOf ticks = false ↔
      (ticks.getLsbD 8 = false ∧ ticks.getLsbD 9 = false) ∨ (ticks.getLsbD 8 = false ∧ ticks.getLsbD 10 = false)
        ∨ (ticks.getLsbD 9 = false ∧ ticks.getLsbD 10 = false))

/-- A station ONLINE or in HALT with an idle line begins the oldest entry that is not a held CLAIM, whose attempt is then
under way; with no such entry, in any other state, or while a start candidate is being checked, nothing begins. -/
def Obligations.BeginFrameSendsTheOldestEligible : Prop :=
  ∀ s : State, ∀ held : TxEntry → Prop,
    (∀ e, held e ↔ e.frame.kind = 4 ∧ ∃ r, s.books.invoice? e.frame.invoice = some r
      ∧ (r.state = .census ∨ r.state = .stale)) →
    (∀ pre e post, (s.books.station = .online ∨ s.books.station = .halt) → s.line.level = .idle →
      s.line.candidate = [] → s.books.tx = pre ++ e :: post → (∀ x ∈ pre, held x) → ¬ held e →
      exec .beginFrame s = .next
        { s with
          line := { s.line with level := .busy, role := .sender, assembler := { Assembler.empty with bits := [false] },
                                slot := .none },
          books := { s.books with tx := pre ++ { e with underWay := true } :: post } })
    ∧ (((s.books.station ≠ .online ∧ s.books.station ≠ .halt) ∨ s.line.level ≠ .idle ∨ s.line.candidate ≠ []
        ∨ (∀ x ∈ s.books.tx, held x)) →
      exec .beginFrame s = .next s)

/-- A sender that reads back as dominant, by the majority of ticks 8 to 10, a recessive bit of H1 or H2 goes on as a
receiver with what it has read back, and its entry waits uncounted, or leaves if its removal has fallen due; a loss in H3
or later raises STATION_CLASH and puts the station OFFLINE: the fill ends told of and reported, its reservation freed, a
mark stops without a status, every settle ends and a waiting ZERO SCALE is answered NOT_STEADY.  What a SHIFT cut short
leaves in the head's path is free (log 42). -/
def Obligations.ArbitrationLostMakesAReceiver : Prop :=
  (∀ (s : State) (char : Nat) (bit : BitRead) (pre post : List TxEntry) (e : TxEntry) (c : RxChar) (heard : List Bool)
      (b : Books),
    s.line.role = .sender → s.books.tx = pre ++ e :: post → (∀ x ∈ pre ++ post, x.underWay = false) →
    e.underWay = true → 1 ≤ char → 1 ≤ bit.place → bit.place ≤ 11 → levelOf bit.ticks = false →
    (frameChars s.books.straps.station e.frame)[char - 1]? = some c →
    (RxChar.bits c)[bit.place - 1]? = some true →
    heard = (((frameChars s.books.straps.station e.frame).flatMap RxChar.bits).take
        (11 * (char - 1) + (bit.place - 1))).flatMap (List.replicate 16)
      ++ (List.range 11).map (fun i => bit.ticks.getLsbD i) →
    b = (match e.removal with
      | .none => { s.books with tx := pre ++ { e with underWay := false } :: post }
      | .discard => { s.books with tx := pre ++ post }
      | .apply =>
        match e.frame with
        | .claim n _ first count =>
          if 1 ≤ e.attempts then ({ s.books with tx := pre ++ post } : Books).applyOwnClaim s.filling n first count
          else { s.books with tx := pre ++ post }
        | _ => { s.books with tx := pre ++ post }) →
    ∃ t : State, t.line.assembler.chars = (frameBytes s.books.straps.station e.frame).take (char - 1)
      ∧ t.line.assembler.bits = (RxChar.bits c).take (bit.place - 1) ++ [false]
      ∧ t = { s with
          line := { s.line.pass heard with role := .receiver (char < 3), assembler := t.line.assembler }, books := b }
      ∧ (char < 3 → exec (.arbitrationLost char bit) s = .next t)
      ∧ (3 ≤ char → exec (.arbitrationLost char bit) s = .next (t.raiseOffline .stationClash)))
  ∧ (∀ (s : State) (c : FaultCode),
      (s.books.station = .offline → s.raiseOffline c = { s with books := s.books.raiseFault c })
      ∧ (s.books.station ≠ .offline → ∀ b : Books, b = { s.books.raiseFault c with station := .offline } →
        ∃ t, s.raiseOffline c = t
          ∧ (s.filler.fill = none → t.books = b)
          ∧ (∀ f f' : Fill, s.filler.fill = some f → f' = f.cut s.filler.step →
              (s.filler.step ∈ ([.idle, .accept, .reject, .mark, .clear] : List FillStep) →
                t.books = b.dropReservation)
              ∧ (s.filler.step ∉ ([.idle, .accept, .reject, .mark, .clear] : List FillStep) →
                ((∀ x ∈ f.comps, x.opened = false) → t.books = (b.chestLost f).dropReservation)
                ∧ ((∃ x ∈ f.comps, x.opened = true) →
                  t.books = (((b.raiseNotice .chestRejected (some f.invoice) none (some 6)).queueFrame none
                    (.chest f.invoice ⟨0, 0, 0, 0, 0, f'.draws⟩)).chestLost f).dropReservation)))
          ∧ t.marker = { s.marker with
              chain := .headIdle, job := none, firing := none, path := t.marker.path, unknown := t.marker.unknown,
              latch := match s.marker.head with
                | none => s.marker.latch
                | some h => if h.activeLow then BitVec.allOnes 32 else 0 }
          ∧ (s.marker.chain ≠ .shift → t.marker.path = s.marker.path ∧ t.marker.unknown = s.marker.unknown)
          ∧ (∀ q code, s.weigh.request = some q → q.who = .zeroScale → s.port.command = some code →
              t.port = { s.port with reply := some ⟨code, .notSteady, []⟩ })
          ∧ ((∀ q, s.weigh.request = some q → q.who ≠ .zeroScale) → t.port = s.port)
          ∧ t = { s with
              books := t.books, marker := t.marker, port := t.port,
              weigh := { s.weigh with request := none, timer := 0 },
              filler := { s.filler with step := .idle, fill := none, gate := .closed, flow := none, rejectTimer := 0 } }))

/-- The end of a counted attempt is judged by the slots, each seen when it reads dominant, and the new count, four attempts
at most; an entry whose removal has fallen due leaves by it; one that leaves is applied to this station's own tables by
its kind: a CLAIM to the serials of its record, a CENSUS and a CLOSE CALL by opening their windows.  A bit sent dominant
that reads recessive by the majority of ticks 8 to 10 is a drive failure: it halts the lane, and counts as an attempt with
neither slot seen: HALT leaves the entry under way in its place, marked for removal when it is a CLAIM, and it then waits
with its count one more, leaves unheard at four, or leaves by its removal.  The model's choices: FRAME_UNHEARD joins the notices before those of applying (log 40), a CLAIM of a
freed record is not noted (log 23), HALT is entered before a drive failure's attempt is reported (log 49), which rows carry
the samples of the runs (log 7), and a drive failure that cannot occur has no effect (log 1). -/
def Obligations.AttemptsAreJudgedAndApplied : Prop :=
  (∀ (ack nak : Bool) (count : Nat), 1 ≤ count → count ≤ 4 →
    judgeAttempt ack nak count =
      if nak = true ∧ count = 4 then .disputed
      else if nak = false ∧ ack = true then .delivered
      else if nak = false ∧ count = 4 then .unheard
      else .again)
  ∧ (∀ (b : Books) (fill : Option Nat),
      (∀ n p k m, b.applyOwn fill (.claim n p k m) = b.applyOwnClaim fill n k m)
      ∧ (∀ n r, b.applyOwn fill (.chest n r) = r.draws.foldl Books.draw b)
      ∧ (∀ n k a m q, b.applyOwn fill (.bin n k a m q) = b.binAction k a m q)
      ∧ (∀ n p, b.applyOwn fill (.census n p) = b.censusLeaves n)
      ∧ (∀ n k p m, b.applyOwn fill (.closeCall n k p m) = b.callLeaves fill n k)
      ∧ (∀ f : Frame, f.kind ∈ [2, 3, 5, 7, 8] → b.applyOwn fill f = b))
  ∧ (∀ (s : State) (x y : BitVec 16) (ack nak : Bool) (pre post : List TxEntry) (e : TxEntry) (b : Books),
      s.line.role = .sender → s.books.tx = pre ++ e :: post → (∀ x ∈ pre ++ post, x.underWay = false) →
      e.underWay = true → ack = !levelOf x → nak = !levelOf y →
      b = (match e.frame with
        | .claim n _ first count => if e.attempts = 0 then s.books.claimSent n first count else s.books
        | _ => s.books) →
      (e.removal = .none → exec (.attemptEnd x y) s = .next
        { s with
          line := s.lineOver ⟨x, y⟩ .none,
          books := (match judgeAttempt ack nak (e.attempts + 1) with
            | .again => { b with tx := pre ++ { e with attempts := e.attempts + 1, underWay := false } :: post }
            | .delivered => ({ b with tx := pre ++ post } : Books).applyOwn s.filling e.frame
            | .disputed => (({ b with tx := pre ++ post } : Books).raiseFault .lineDispute).applyOwn s.filling e.frame
            | .unheard => (({ b with tx := pre ++ post } : Books).raiseNotice .frameUnheard
                (if e.frame.kind = 9 then none else some e.frame.invoice) e.frame.serial?
                (some e.frame.kind)).applyOwn s.filling e.frame) })
      ∧ (e.removal = .discard → exec (.attemptEnd x y) s = .next
        { s with line := s.lineOver ⟨x, y⟩ .none, books := { s.books with tx := pre ++ post } })
      ∧ (e.removal = .apply → exec (.attemptEnd x y) s = .next
        { s with
          line := s.lineOver ⟨x, y⟩ .none,
          books := (match e.frame with
            | .claim n _ first count => ({ b with tx := pre ++ post } : Books).applyOwnClaim s.filling n first count
            | _ => { b with tx := pre ++ post }) }))
  ∧ (∀ (s t : State) (char : Nat) (bit : BitRead) (pre post : List TxEntry) (e : TxEntry) (c : RxChar) (heard : List Bool),
      s.line.role = .sender → s.books.tx = pre ++ e :: post → (∀ x ∈ pre ++ post, x.underWay = false) →
      e.underWay = true → 1 ≤ char → 1 ≤ bit.place → bit.place ≤ 11 →
      (frameChars s.books.straps.station e.frame)[char - 1]? = some c →
      heard = (((frameChars s.books.straps.station e.frame).flatMap RxChar.bits).take
          (11 * (char - 1) + (bit.place - 1))).flatMap (List.replicate 16)
        ++ (List.range 11).map (fun i => bit.ticks.getLsbD i) →
      t = ({ s with line := { s.line.pass heard with role := .none, assembler := .empty, slot := .none } }
        : State).raiseHalting .lineDrive →
      ((RxChar.bits c)[bit.place - 1]? = some false → levelOf bit.ticks = true →
        (s.books.station = .online → t.books.station = .halt)
        ∧ ∃ (front back : List TxEntry) (x : TxEntry) (b : Books), t.books.tx = front ++ x :: back
          ∧ (∀ y ∈ front ++ back, y.underWay = false)
          ∧ x = { e with removal := x.removal }
          ∧ ((s.books.station ≠ .online ∨ e.removal ≠ .none ∨ e.frame.kind ∈ [2, 3, 5, 6, 7, 8, 9]) →
              x.removal = e.removal)
          ∧ (s.books.station = .online → e.removal = .none → e.frame.kind = 4 → x.removal = .apply)
          ∧ b = (match e.frame with
              | .claim n _ first count =>
                if e.attempts = 0 ∧ x.removal ≠ .discard then t.books.claimSent n first count else t.books
              | _ => t.books)
          ∧ (x.removal = .none → e.attempts < 3 → exec (.lineDrive char bit) s = .next { t with
              books := { b with tx := front ++ { x with attempts := e.attempts + 1, underWay := false } :: back } })
          ∧ (x.removal = .none → 3 ≤ e.attempts → exec (.lineDrive char bit) s = .next { t with
              books := (({ b with tx := front ++ back } : Books).raiseNotice .frameUnheard
                (if e.frame.kind = 9 then none else some e.frame.invoice) e.frame.serial?
                (some e.frame.kind)).applyOwn t.filling e.frame })
          ∧ (x.removal = .discard → exec (.lineDrive char bit) s = .next { t with
              books := { t.books with tx := front ++ back } })
          ∧ (x.removal = .apply → exec (.lineDrive char bit) s = .next { t with
              books := match e.frame with
                | .claim n _ first count => ({ b with tx := front ++ back } : Books).applyOwnClaim t.filling n first count
                | _ => { b with tx := front ++ back } }))
      ∧ (((RxChar.bits c)[bit.place - 1]? = some true ∨ levelOf bit.ticks = false) →
        exec (.lineDrive char bit) s = .next s))
  ∧ (∀ (s : State) (char : Nat) (bit : BitRead), s.line.role ≠ .sender → exec (.lineDrive char bit) s = .next s)
  ∧ (∀ (b : Books) (fill : Option Nat) (ack nak : Bool), (∀ e ∈ b.tx, e.underWay = false) →
      b.attemptEnds fill ack nak = b)
  ∧ (∀ (b : Books) (n : Nat) (f : Invoice → Invoice), (∀ r, (f r).number = r.number) →
      (b.modifyInvoice n f).invoice? n = (b.invoice? n).map f
      ∧ (∀ k, k ≠ n → (b.modifyInvoice n f).invoice? k = b.invoice? k)
      ∧ b.modifyInvoice n f = { b with invoices := (b.modifyInvoice n f).invoices })
  ∧ (∀ (b : Books) (n first count : Nat), b.claimSent n first count = b.modifyInvoice n (fun r =>
      { r with sent := some ⟨first, count, []⟩, high := max r.high (first + count - 1) }))
  ∧ (∀ (b : Books) (fill : Option Nat) (n first count : Nat) (r : Invoice) (xs : List Nat), b.invoice? n = some r →
      xs = (List.range' first count).filter (fun x =>
        x ≤ r.ceiling && !((r.sent.map (·.yielded)).getD []).contains x && (b.chest? n x).isNone) →
      (∀ k, k ≠ n → (b.applyOwnClaim fill n first count).invoice? k = b.invoice? k)
      ∧ b.applyOwnClaim fill n first count
          = { b with invoices := (b.applyOwnClaim fill n first count).invoices }
      ∧ ((r.state = .census ∨ r.state = .active ∨ r.state = .stale) →
        (b.applyOwnClaim fill n first count).invoice? n = some { r with
          high := max r.high (first + count - 1), sent := none,
          free := xs.foldl (fun l x => if l.length < 16 then insertAsc x l else l) r.free })
      ∧ (r.state = .closing → r.free = [] → fill = some n →
        (b.applyOwnClaim fill n first count).invoice? n = some { r with
          high := max r.high (first + count - 1), sent := none, free := xs.take 1,
          surrendered := r.surrendered + (xs.length - 1) })
      ∧ ((r.state = .closed ∨ (r.state = .closing ∧ (r.free ≠ [] ∨ fill ≠ some n))) →
        (b.applyOwnClaim fill n first count).invoice? n = some { r with
          high := max r.high (first + count - 1), sent := none, surrendered := r.surrendered + xs.length }))
  ∧ (∀ (b : Books) (n : Nat), b.censusLeaves n = b.modifyInvoice n (fun r => if r.phase = .queued
      then { r with phase := .window (later b.time 100), tallies := [] } else r))
  ∧ (∀ (b : Books) (fill : Option Nat) (n k : Nat),
      (b.invoice? n = none → b.callLeaves fill n k = b)
      ∧ (∀ r, b.invoice? n = some r →
        (k = 1 → (r.state = .census ∨ r.state = .active ∨ r.state = .stale) →
          ∀ (c : Books) (cs : List Chest) (d : Round), c = b.enterClosing fill n .closer →
          cs = b.chests.filter (fun c => c.invoice = n && c.serial?.isSome && c.origin = .own) →
          d = { invoice := n, number := 1, phase := .window (later b.time 150), extensions := 0,
                answers := [{ station := b.straps.station, inProgress := if fill = some n then 1 else 0,
                              packed := cs.length, free := min 16 (((c.invoice? n).map (·.surrendered)).getD 0),
                              net := (cs.map (·.net)).sum }] } →
          b.callLeaves fill n k = { c with rounds := putBy (fun d => d.invoice) d c.rounds })
        ∧ (k = 2 → r.state = .closing → b.callLeaves fill n k = { b with rounds := b.rounds.map (fun d =>
            if d.invoice = n ∧ d.phase = .callQueued then { d with phase := .window (later b.time 150) } else d) })
        ∧ ((k ≠ 1 ∨ r.state = .closing ∨ r.state = .closed) → (k ≠ 2 ∨ r.state ≠ .closing) →
            b.callLeaves fill n k = b)))

/-- Frames that a receiver does not take: lost framing, filtered out after H4, and NAKed with a stale request; each is the
receiver's finding in the characters that it assembles from the samples, and those end no later than the line's becoming
IDLE or HELD.  A row that contradicts what the assembler has kept has no effect (log 1); the topic filter is applied once,
by the table at the end of H4, whose row is FRAME_FILTERED, and till then no frame of a filtered kind reaches its end
(log 37), which drops frames followed for timing alone as well (log 50); a stale request acts on a record by its state and census phase, in ascending order of number (log 10). -/
def Obligations.FramesNotTakenAreGivenUp : Prop :=
  (∀ (has : Nat → Bool) (c : RxChar) (l : List RxChar),
    (c.stop = false ∨ c.mark = false ∨ (mirror c.data).toNat = 0 ∨ 10 < (mirror c.data).toNat) →
    judge has (c :: l) = .lost)
  ∧ (∀ (has : Nat → Bool) (c : RxChar) (l : List RxChar), (mirror c.data).toNat = 6 →
      ((∃ i d, i < 13 ∧ (c :: l)[i]? = some d ∧ (d.stop = false ∨ d.mark ≠ decide (i < 4))) → judge has (c :: l) = .lost)
      ∧ (∀ d, l[11]? = some d → (d.data.toNat = 0 ∨ 4 < d.data.toNat) → judge has (c :: l) = .lost))
  ∧ (∀ (has : Nat → Bool) (c₁ c₂ c₃ c₄ : RxChar), (∀ c ∈ [c₁, c₂, c₃, c₄], c.stop = true ∧ c.mark = true) →
      (mirror c₁.data).toNat ∈ [1, 2, 3, 4, 5, 7, 8, 10] → has (256 * c₃.data.toNat + c₄.data.toNat) = false →
      judge has [c₁, c₂, c₃, c₄] = .filtered)
  ∧ (∀ (has : Nat → Bool) (c : RxChar) (cs : List RxChar) (kind : Nat) (p : List Byte), cs.head? = some c →
      c.stop = true → c.mark = true → kind = (mirror c.data).toNat → 1 ≤ kind → kind ≤ 10 → p = cs.map (·.data) →
      cs.length = 6 + bodyLength kind (byteAt p 12) →
      (kind = 6 → 1 ≤ byteAt p 12 ∧ byteAt p 12 ≤ 4
        ∧ ∀ i d, i < 13 → cs[i]? = some d → d.stop = true ∧ d.mark = decide (i < 4)) →
      (kind = 6 ∨ kind = 9 ∨ has (num2 p 2) = true
        ∨ ∃ i d, i < 4 ∧ cs[i]? = some d ∧ (d.stop = false ∨ d.mark = false)) →
      ((∃ i d, cs[i]? = some d ∧ (d.stop = false ∨ d.mark ≠ decide (i < 4))) → judge has cs = .naked)
      ∧ ((crc (p.take (p.length - 2))).toNat ≠ num2 p (p.length - 2) → judge has cs = .naked)
      ∧ (∀ f, readFrame (p.take (p.length - 2)) = some f →
          f.inRange (mirror (BitVec.ofNat 8 (byteAt p 1))).toNat = false → judge has cs = .naked))
  ∧ (∀ (s : State) (live : Bool) (samples : List Bool) (cs : List RxChar), s.line.role = .receiver live →
      cs = assembled samples →
      (s.line.assembler.agrees cs = true →
        (s.judged cs = .lost → exec (.frameLost samples) s = .next
          { s with line := { s.lineAfter samples .none with lost := live } })
        ∧ (s.line.assembler.chars.length < 4 → judge s.books.hasInvoice cs = .filtered →
          (s.hears = true → exec (.frameFiltered samples) s = .next
            { s with line := s.lineAfter samples .none, books := s.books.setRepeat (senderOf cs) none })
          ∧ (s.hears = false → exec (.frameFiltered samples) s = .next { s with line := s.lineAfter samples .none }))
        ∧ (s.line.assembler.chars.length < 4 → judge s.books.hasInvoice cs = .unfinished → ∀ c₁ c₂ c₃ c₄, cs = [c₁, c₂, c₃, c₄] →
          exec (.frameFiltered samples) s = .next { s with line := { s.line with
            recessiveRun := trailing true samples, dominantRun := trailing false samples,
            assembler :=
              { chars := [c₁.data, c₂.data, c₃.data, c₄.data], bits := [],
                expected := if (mirror c₁.data).toNat = 6 then none else some (6 + bodyLength (mirror c₁.data).toNat 0),
                error := decide (∃ d ∈ cs, d.stop = false ∨ d.mark = false) } } }))
      ∧ ((s.line.assembler.agrees cs = false ∨ 4 ≤ s.line.assembler.chars.length) →
          exec (.frameFiltered samples) s = .next s)
      ∧ (s.line.assembler.agrees cs = false → exec (.frameLost samples) s = .next s))
  ∧ (∀ (s : State) (live : Bool) (x : FrameSamples) (cs : List RxChar), s.line.role = .receiver live →
      cs = assembled x.body →
      (s.line.assembler.agrees cs = false → exec (.frameNaked x) s = .next s)
      ∧ (s.line.assembler.agrees cs = true →
        (s.judged cs = .naked →
          (s.hears = true → exec (.frameNaked x) s = .next
            { s with line := s.lineAfter (x.body ++ slotSamples x.slots .nak) .nak, books := s.books.staleRequest })
          ∧ (s.hears = false → exec (.frameNaked x) s = .next
            { s with line := s.lineAfter (x.body ++ slotSamples x.slots .none) .none }))
        ∧ (s.judged cs ≠ .naked → exec (.frameNaked x) s = .next s)))
  ∧ (∀ (s : State) (cs : List RxChar), s.judged cs
      = judge (fun _ => decide (4 ≤ s.line.assembler.chars.length) || !s.hears) cs)
  ∧ (∀ (s : State) (pre gap post : List Bool) (x : SlotSamples),
      (gap = List.replicate 176 true ∨ gap = List.replicate 384 false) →
      assembled (pre ++ gap ++ post) = [] ∧ exec (.frameLost (pre ++ gap ++ post)) s = .next s
        ∧ exec (.frameFiltered (pre ++ gap ++ post)) s = .next s
        ∧ exec (.frameNaked ⟨pre ++ gap ++ post, x⟩) s = .next s)
  ∧ (∀ (s : State) (samples : List Bool) (x : FrameSamples), (s.line.role = .none ∨ s.line.role = .sender) →
      exec (.frameLost samples) s = .next s ∧ exec (.frameFiltered samples) s = .next s
        ∧ exec (.frameNaked x) s = .next s
        ∧ ∀ c q f, heardOf c = some (q, f) → exec c s = .next s)
  ∧ (∀ (s : State) (c : Instr) (q : Sender) (f : Frame) (live : Bool), heardOf c = some (q, f) →
      (∀ n r, f = .chest n r → 1 ≤ r.draws.length ∧ r.draws.length ≤ 4) → s.line.role = .receiver live →
      (s.line.assembler.agrees (frameChars q.number.toNat f) = false → exec c s = .next s)
      ∧ (s.line.assembler.agrees (frameChars q.number.toNat f) = true →
        (s.hears = false → exec c s = .next { s with line := s.lineOver q.slots .none })
        ∧ (s.hears = true → f.kind ≠ 6 → f.kind ≠ 9 → s.line.assembler.chars.length < 4 → exec c s = .next s)
        ∧ (s.hears = true → (f.kind = 6 ∨ f.kind = 9 ∨ 4 ≤ s.line.assembler.chars.length) →
            f.inRange q.number.toNat = false → exec c s = .next { s with line := s.lineOver q.slots .nak, books := s.books.staleRequest })))
  ∧ (∀ b : Books, b.staleRequest = (b.invoices.map (·.number)).foldl Books.staleRecord b
      ∧ ∀ n, (b.invoice? n = none → b.staleRecord n = b)
        ∧ ∀ r, b.invoice? n = some r →
          (r.state = .active → r.phase = .none → b.staleRecord n
            = (b.modifyInvoice n (fun r => { r with state := .stale, phase := .queued })).queueFrame none
                (.census n r.planned))
          ∧ ((r.state = .census ∨ r.state = .stale) → r.phase = .queued → b.staleRecord n
            = b.modifyInvoice n (fun r => { r with state := .stale }))
          ∧ (∀ ends, (r.state = .census ∨ r.state = .stale) → r.phase = .window ends → b.staleRecord n
            = b.modifyInvoice n (fun r => { r with state := .stale, recount := true }))
          ∧ ((r.state = .closing ∨ r.state = .closed) → b.staleRecord n = b))

/-! ### Frames heard -/

/-- VOID, SAMPLE and MARK heard are taken with an ACK; the record under the key changes by its origin and packing station,
and the sender's repeat memory becomes absent. -/
def Obligations.HeardVoidSampleAndMark : Prop :=
  (∀ (s : State) (q : Sender) (k : Byte) (n : BitVec 16), s.takes q (.void n.toNat k.toNat) →
    ∃ b, exec (.voidFrame q n k) s = .next (s.took q (b.setRepeat q.number.toNat none))
      ∧ ((s.books.chest? n.toNat k.toNat = none
            ∨ ∀ r, s.books.invoice? n.toNat = some r → r.state = .closed) → b = s.books)
      ∧ (∀ r c, s.books.invoice? n.toNat = some r → r.state ≠ .closed → s.books.chest? n.toNat k.toNat = some c →
          (c.origin = .heard → c.station = q.number.toNat →
            b = (s.books.dropChests (fun c => c.invoice = n.toNat && c.key = .packed k.toNat)).evalFull n.toNat)
          ∧ ((c.origin = .own ∨ c.station ≠ q.number.toNat) → c.conflict = some q.number.toNat →
            b = s.books.putChest { c with conflict := none })
          ∧ ((c.origin = .own ∨ c.station ≠ q.number.toNat) → c.conflict ≠ some q.number.toNat → b = s.books)))
  ∧ (∀ (s : State) (q : Sender) (k : Byte) (n w : BitVec 16), s.takes q (.sample n.toNat k.toNat w.toNat) →
      ∃ b, exec (.sampleFrame q n k w) s = .next (s.took q (b.setRepeat q.number.toNat none))
        ∧ ((s.books.chest? n.toNat k.toNat = none
              ∨ ∀ r, s.books.invoice? n.toNat = some r → r.state = .closed) → b = s.books)
        ∧ (∀ r c, s.books.invoice? n.toNat = some r → r.state ≠ .closed → s.books.chest? n.toNat k.toNat = some c →
            (c.sample = none → w.toNat ≤ c.net → b = s.books.putChest { c with sample := some w.toNat })
            ∧ ((c.sample ≠ none ∨ c.net < w.toNat) → b = s.books)))
  ∧ (∀ (s : State) (q : Sender) (k m : Byte) (n : BitVec 16), s.takes q (.mark n.toNat k.toNat m.toNat) →
      ∃ b, exec (.markFrame q n k m) s = .next (s.took q (b.setRepeat q.number.toNat none))
        ∧ (s.books.invoice? n.toNat = none ∨ s.books.chest? n.toNat k.toNat = none → b = s.books)
        ∧ (∀ c, s.books.invoice? n.toNat ≠ none → s.books.chest? n.toNat k.toNat = some c →
            (c.origin = .heard → c.station = q.number.toNat →
              b = s.books.putChest { c with
                mark := if m = 1 then .pending else if m = 2 then .good else if m = 3 then .defect else .none })
            ∧ ((c.origin = .own ∨ c.station ≠ q.number.toNat) → b = s.books)))

/-- BIN and CHEST heard: the action and, but for a repeat, the draws reach the bins whatever the invoice; a CHEST is then
handed to the Chest Store, which makes, replaces or keeps the record, or marks a conflict, and is remembered.  That the
draws come before the Chest Store's part is the model's choice (log 41). -/
def Obligations.HeardBinAndChest : Prop :=
  (∀ (s : State) (q : Sender) (k a : Byte) (n m v : BitVec 16),
    s.takes q (.bin n.toNat k.toNat a.toNat m.toNat v.toNat) →
    exec (.binFrame q n k a m v) s = .next
      (s.took q ((s.books.binAction k.toNat a.toNat m.toNat v.toNat).setRepeat q.number.toNat none)))
  ∧ (∀ (s : State) (c : Instr) (q : Sender) (n : Nat) (r : ChestReport) (again : Bool) (b : Books),
      heardOf c = some (q, .chest n r) → s.takes q (.chest n r) →
      again = decide (s.books.repeat? q.number.toNat = some ⟨n, r⟩) →
      b = (if again then s.books else r.draws.foldl Books.draw s.books) →
      ∃ b', exec c s = .next (s.took q (b'.setRepeat q.number.toNat (some ⟨n, r⟩)))
        ∧ (s.books.invoice? n = none → b' = b)
        ∧ (∀ v, s.books.invoice? n = some v →
            (r.serial = 0 → b' = b.joinParticipants n q.number.toNat)
            ∧ (r.serial ≠ 0 → v.state = .closed →
                b' = (b.joinParticipants n q.number.toNat).heardSerial s.filling n r.serial)
            ∧ (r.serial ≠ 0 → v.state ≠ .closed →
                b' = ((b.joinParticipants n q.number.toNat).storeHeard q.number.toNat n r again).heardSerial s.filling n
                  r.serial)))
  ∧ (∀ (b : Books) (q n : Nat) (r : ChestReport) (again : Bool) (c : Chest),
      c = { invoice := n, key := .packed r.serial, station := q, origin := .heard, gross := r.gross, tare := r.tare,
            net := r.net, sample := none, offBlend := r.flags % 2 = 1, mark := .pending, draws := r.draws,
            conflict := none } →
      (b.chest? n r.serial = none →
        ((b.freeSlots ≥ 2 ∨ (b.freeSlots = 1 ∧ b.reservation ≠ none)) →
          b.storeHeard q n r again = (b.putChest c).evalFull n)
        ∧ ((b.freeSlots = 0 ∨ (b.freeSlots = 1 ∧ b.reservation = none)) →
          b.storeHeard q n r again
            = (b.modifyInvoice n (fun v => { v with view := .short })).raiseFault .storeFull))
      ∧ (∀ o, b.chest? n r.serial = some o →
          (o.origin = .heard → o.station = q →
            (o.gross = c.gross → o.tare = c.tare → o.net = c.net → o.offBlend = c.offBlend → o.draws = c.draws →
              b.storeHeard q n r again = b)
            ∧ ((o.gross ≠ c.gross ∨ o.tare ≠ c.tare ∨ o.net ≠ c.net ∨ o.offBlend ≠ c.offBlend ∨ o.draws ≠ c.draws) →
              b.storeHeard q n r again = b.putChest c))
          ∧ ((o.origin = .own ∨ o.station ≠ q) →
            b.storeHeard q n r again =
              if again then b.putChest { o with conflict := some q }
              else (b.putChest { o with conflict := some q }).raiseNotice .serialConflict (some n) (some r.serial)
                (some q))))
  ∧ (∀ (b : Books) (q k : Nat) (r : Option Repeat), 1 ≤ q → q ≤ 31 → q ≠ b.straps.station →
      (b.setRepeat q r).repeat? q = r ∧ (k ≠ q → 1 ≤ k → (b.setRepeat q r).repeat? k = b.repeat? k))

/-- CENSUS heard: the planned counts are compared and a census TALLY of the moment is queued, in that order by the model's
choice (log 11).  TALLY heard: the sender joins the participants, the high mark rises but in CLOSED, the planned counts are
compared, and the answer joins the tally set of a running window or the round.  At a fall of the ceiling the serials above
it go first, then the CLAIM is rewritten, FULL judged and the claim check made: the model's choice (log 12). -/
def Obligations.HeardCensusAndTally : Prop :=
  (∀ (s : State) (q : Sender) (m : Byte) (n : BitVec 16), s.takes q (.census n.toNat m.toNat) →
    ∃ b, exec (.censusFrame q n m) s = .next (s.took q (b.setRepeat q.number.toNat none))
      ∧ (s.books.invoice? n.toNat = none → b = s.books)
      ∧ (∀ r, s.books.invoice? n.toNat = some r →
          b = (s.books.comparePlan s.filling n.toNat m.toNat).queueTally n.toNat 1
            (if s.filling = some n.toNat then 1 else 0)))
  ∧ (∀ (b : Books) (n a g : Nat) (r : Invoice), b.invoice? n = some r →
      b.queueTally n a g = b.queueFrame none (.tally n
        { answerTo := a, planned := r.planned, high := r.high,
          packed := (b.chests.filter (fun c => c.invoice = n && c.serial?.isSome && c.origin = .own)).length,
          free := if a = 2 then min 16 r.surrendered else r.free.length, inProgress := g,
          net := ((b.chests.filter (fun c => c.invoice = n && c.serial?.isSome && c.origin = .own)).map (·.net)).sum }))
  ∧ (∀ (b : Books) (fill : Option Nat) (n m : Nat) (r : Invoice), b.invoice? n = some r →
      ((m = r.planned ∨ r.state = .closing ∨ r.state = .closed) → b.comparePlan fill n m = b)
      ∧ (m ≠ r.planned → (r.state = .census ∨ r.state = .active ∨ r.state = .stale) →
          (r.ceiling ≤ m → b.comparePlan fill n m = b.raiseFault .planMismatch)
          ∧ (m < r.ceiling → ∀ c,
              c = (((b.raiseFault .planMismatch).modifyInvoice n (fun r =>
                { r with ceiling := m, free := r.free.filter (fun x => x ≤ m) })).rewriteClaim n).evalFull n →
              b.comparePlan fill n m =
                if r.free ≠ [] ∧ c.freeOf n = [] ∧ fill = some n then c.claimCheck n else c)))
  ∧ (∀ (s : State) (c : Instr) (q : Sender) (n : Nat) (y : Tally), heardOf c = some (q, .tally n y) →
      s.takes q (.tally n y) →
      ∃ b, exec c s = .next (s.took q (b.setRepeat q.number.toNat none))
        ∧ (s.books.invoice? n = none → b = s.books)
        ∧ (∀ r, s.books.invoice? n = some r → ∀ b₁,
            b₁ = (if r.state = .closed then s.books.joinParticipants n q.number.toNat
              else (s.books.joinParticipants n q.number.toNat).raiseHigh n y.high).comparePlan s.filling n y.planned →
            (y.answerTo = 1 → b = b₁.noteTally n q.number.toNat y.packed)
            ∧ (y.answerTo = 2 → r.state = .closing → r.role = some .closer →
                b = b₁.recordAnswer n
                  { station := q.number.toNat, inProgress := y.inProgress, packed := y.packed, free := y.free,
                    net := y.net })
            ∧ (y.answerTo = 2 → (r.state ≠ .closing ∨ r.role ≠ some .closer) → b = b₁)))
  ∧ (∀ (b : Books) (n q k : Nat),
      b.joinParticipants n q = b.modifyInvoice n (fun r => { r with participants := insertAsc q r.participants })
      ∧ b.noteTally n q k = b.modifyInvoice n (fun r => match r.phase with
          | .window _ => { r with tallies := putBy (fun t => t.station) ⟨q, k⟩ r.tallies }
          | _ => r)
      ∧ (b.invoice? n = none → b.raiseHigh n k = b)
      ∧ (∀ r, b.invoice? n = some r →
          (k ≤ r.high → b.raiseHigh n k = b)
          ∧ (r.high < k → b.raiseHigh n k = (b.modifyInvoice n (fun r => { r with high := k })).rewriteClaim n)))
  ∧ (∀ (x : Nat) (l : List Nat), l.Pairwise (· < ·) →
      (insertAsc x l).Pairwise (· < ·) ∧ ∀ y, y ∈ insertAsc x l ↔ y = x ∨ y ∈ l)
  ∧ (∀ (t : Tallied) (l : List Tallied), l.Pairwise (fun a b => a.station < b.station) →
      (putBy (fun t => t.station) t l).Pairwise (fun a b => a.station < b.station)
      ∧ ∀ u, u ∈ putBy (fun t => t.station) t l ↔ u = t ∨ (u ∈ l ∧ u.station ≠ t.station))

/-- CLAIM heard: the high mark covers it, serials it names leave the free list and join the yielded set, the sender joins,
the plans are compared, a never-sent CLAIM is rewritten and the claim check may run.  A serial heard in use acts alike. -/
def Obligations.HeardClaimAndSerial : Prop :=
  (∀ (s : State) (q : Sender) (m k v : Byte) (n : BitVec 16),
    s.takes q (.claim n.toNat m.toNat k.toNat v.toNat) →
    ∃ b, exec (.claimFrame q n m k v) s = .next (s.took q (b.setRepeat q.number.toNat none))
      ∧ (s.books.invoice? n.toNat = none → b = s.books)
      ∧ (∀ r, s.books.invoice? n.toNat = some r → ∀ kept : List Nat,
          kept = r.free.filter (fun x => x < k.toNat || k.toNat + v.toNat ≤ x) →
          ∀ (r' : Invoice) (b₁ : Books),
            r'.free = kept → r'.high = max r.high (k.toNat + v.toNat - 1) →
            r'.surrendered = (if r.state = .closing ∨ r.state = .closed
              then r.surrendered + (r.free.length - kept.length) else r.surrendered) →
            r'.sent = r.sent.map (fun c => { c with
              yielded := ((List.range' k.toNat v.toNat).filter (fun x => c.first ≤ x && x < c.first + c.count)).foldl
                (fun l x => insertAsc x l) c.yielded }) →
            r' = { r with free := r'.free, high := r'.high, surrendered := r'.surrendered, sent := r'.sent } →
            (∀ x ∈ s.books.invoices, x.number = n.toNat → x = r) →
            b₁ = (((s.books.modifyInvoice n.toNat (fun _ => r')).joinParticipants n.toNat q.number.toNat).comparePlan
              s.filling n.toNat m.toNat).rewriteClaim n.toNat →
            b = if r.free ≠ [] ∧ kept = [] ∧ s.filling = some n.toNat then b₁.claimCheck n.toNat else b₁))
  ∧ (∀ (b : Books) (n : Nat) (r : Invoice), b.invoice? n = some r →
      ((∀ e ∈ b.tx, ¬ (e.frame.kind = 4 ∧ e.frame.invoice = n ∧ e.attempts = 0 ∧ e.removal = .none)) →
        b.rewriteClaim n = b)
      ∧ ((∃ e ∈ b.tx, e.frame.kind = 4 ∧ e.frame.invoice = n ∧ e.attempts = 0 ∧ e.removal = .none) →
        r.high < r.ceiling →
        b.rewriteClaim n = { b with tx := b.tx.map (fun e =>
          if e.frame.kind = 4 ∧ e.frame.invoice = n ∧ e.attempts = 0 ∧ e.removal = .none
          then { e with frame := .claim n r.planned (r.high + 1) (min b.blockSize (r.ceiling - r.high)) } else e) })
      ∧ ((∃ e ∈ b.tx, e.frame.kind = 4 ∧ e.frame.invoice = n ∧ e.attempts = 0 ∧ e.removal = .none) →
        r.ceiling ≤ r.high →
        b.rewriteClaim n = ({ b with tx := (b.tx.filter (fun e =>
          e.underWay ∨ ¬ (e.frame.kind = 4 ∧ e.frame.invoice = n ∧ e.attempts = 0 ∧ e.removal = .none))).map (fun e =>
            if e.frame.kind = 4 ∧ e.frame.invoice = n ∧ e.attempts = 0 ∧ e.removal = .none
            then { e with removal := .apply } else e) } : Books).raiseNotice .serialsExhausted (some n) none none))
  ∧ (∀ (b : Books) (fill : Option Nat) (n k : Nat) (r : Invoice), b.invoice? n = some r →
      (∀ x ∈ b.invoices, x.number = n → x = r) →
      ∀ (r' : Invoice) (b₁ : Books),
        r' = { r with
          free := r.free.filter (fun x => x ≠ k),
          sent := r.sent.map (fun c => if c.first ≤ k ∧ k < c.first + c.count
            then { c with yielded := insertAsc k c.yielded } else c),
          high := max r.high k } →
        b₁ = (if r.high < k then (b.modifyInvoice n (fun _ => r')).rewriteClaim n
          else b.modifyInvoice n (fun _ => r')) →
        b.heardSerial fill n k = if r.free ≠ [] ∧ b₁.freeOf n = [] ∧ fill = some n then b₁.claimCheck n else b₁)

/-- CLOSE CALL heard: an open record yields its own queued call, enters CLOSING as a peer, answers and is told of; in CLOSING
and CLOSED the call is answered alone.  CLOSED heard: the record becomes CLOSED as a peer's, compared and told of, the
steps of a closer's yield in the manual's written order (log 36).  Entering CLOSING and CLOSED ends the census, removes the
entries of R30, a CLAIM with an attempt being applied, and surrenders the free serials, but for one that a fill keeps. -/
def Obligations.HeardCloseCallAndClosed : Prop :=
  (∀ (s : State) (q : Sender) (round m p : Byte) (n : BitVec 16),
    s.takes q (.closeCall n.toNat round.toNat m.toNat p.toNat) →
    ∃ b, exec (.closeCallFrame q n round m p) s = .next (s.took q (b.setRepeat q.number.toNat none))
      ∧ (s.books.invoice? n.toNat = none → b = s.books)
      ∧ (∀ r, s.books.invoice? n.toNat = some r →
          ((r.state = .census ∨ r.state = .active ∨ r.state = .stale) →
            b = ((((s.books.yieldCall n.toNat 1).enterClosing s.filling n.toNat .peer).queueTally n.toNat 2
              (if s.filling = some n.toNat then 1 else 0)).raiseNotice .closeCalled (some n.toNat) none (some m.toNat)))
          ∧ (r.state = .closing → b = s.books.queueTally n.toNat 2 (if s.filling = some n.toNat then 1 else 0))
          ∧ (r.state = .closed → b = s.books.queueTally n.toNat 2 0)))
  ∧ (∀ (s : State) (q : Sender) (st m x : Byte) (n : BitVec 16) (v : BitVec 24),
      s.takes q (.closed n.toNat st.toNat m.toNat x.toNat v.toNat) →
      ∃ b, exec (.closedFrame q n st m x v) s = .next (s.took q (b.setRepeat q.number.toNat none))
        ∧ (s.books.invoice? n.toNat = none → b = s.books)
        ∧ (∀ r, s.books.invoice? n.toNat = some r → r.state = .closed → b = s.books)
        ∧ (∀ r b₁ b₂, s.books.invoice? n.toNat = some r → r.state ≠ .closed →
            b₁ = (if r.state = .closing ∧ r.role = some .closer then s.books.dropRound n.toNat
              else s.books.yieldCall n.toNat 2).enterClosed s.filling n.toNat .peer →
            b₂ = b₁.raiseNotice .invoiceClosed (some n.toNat) none
              (some (if m.toNat = b₁.packedCount n.toNat ∧ x.toNat = (b₁.missing n.toNat r.planned).length
                  ∧ v.toNat = ((b₁.packed n.toNat).map (·.net)).sum then st.toNat else st.toNat + 8)) →
            b = if r.state = .closing ∧ r.role = some .closer
              then b₂.raiseNotice .closeYielded (some n.toNat) none (some 2) else b₂))
  ∧ (∀ (b : Books) (n v : Nat),
      ((∀ e ∈ b.tx, e.frame.kind = 1 → e.frame.invoice ≠ n) → b.yieldCall n v = b)
      ∧ ((∃ e ∈ b.tx, e.frame.kind = 1 ∧ e.frame.invoice = n) →
        b.yieldCall n v = (b.removeEntries none .apply
          (fun e => e.frame.kind = 1 ∧ e.frame.invoice = n)).raiseNotice .closeYielded (some n) none (some v)))
  ∧ (∀ (b : Books) (fill : Option Nat) (n : Nat) (role : CloseRole),
      b.enterClosing fill n role = ((b.modifyInvoice n (fun r =>
          { r with state := .closing, role := some role, phase := .none, recount := false, tallies := [] })).removeEntries
            fill .apply (fun e => (e.frame.kind = 4 ∨ e.frame.kind = 10) ∧ e.frame.invoice = n)).modifyInvoice n (fun r =>
              { r with
                free := if fill = some n then r.free.take 1 else [],
                surrendered := r.surrendered + (r.free.length - if fill = some n then 1 else 0) })
      ∧ (∀ r, b.invoice? n = some r →
          ((r.state = .census ∨ r.state = .active ∨ r.state = .stale) →
            b.enterClosed fill n role = (b.enterClosing fill n .peer).enterClosed fill n role)
          ∧ ((r.state = .closing ∨ r.state = .closed) →
            b.enterClosed fill n role = ((b.modifyInvoice n (fun r =>
              { r with state := .closed, role := some role, phase := .none, recount := false, tallies := []
                })).removeEntries fill .apply (fun e =>
                  (e.frame.kind = 4 ∨ e.frame.kind = 10 ∨ e.frame.kind = 1) ∧ e.frame.invoice = n)).modifyInvoice n (fun r =>
                    { r with free := [], surrendered := r.surrendered + r.free.length }))))
  ∧ (∀ (b : Books) (fill : Option Nat) (p : TxEntry → Bool),
      b.removeEntries fill .discard p = { b with tx := (b.tx.filter (fun e => !p e || e.underWay)).map (fun e =>
          if p e then { e with removal := .discard } else e) }
      ∧ b.removeEntries fill .apply p = (b.tx.filter (fun e => p e && !e.underWay)).foldl (fun c e =>
          match e.frame with
          | .claim n _ first count => if 1 ≤ e.attempts then c.applyOwnClaim fill n first count else c
          | _ => c)
        { b with tx := (b.tx.filter (fun e => !p e || e.underWay)).map (fun e =>
          if p e ∧ e.removal = .none then { e with removal := .apply } else e) })

/-! ### Windows, extensions and completion -/

/-- A census window ends with the view it found or a recount; a close window ends in a second call, an extension or the
completion; an extension ends in another or the completion, or early once every participant has answered with no fill in
progress.  Completion compiles the whole lot sheet, queues CLOSED and ends the round.  A census is started by its frame with
the planned count, in phase QUEUED; a round is changed or ended alone, the others standing.  A row sent before its moment lets
the missing time pass: the model's choice (log 3). -/
def Obligations.WindowsEndAtTheirTimes : Prop :=
  (∀ (s : State) (n : Nat) (r : Invoice) (ends : Time) (d : Nat) (b : Books), s.books.invoice? n = some r →
    r.phase = .window ends → d = msUntil ends s.books.time → b = { s.books with time := later s.books.time d } →
    (r.recount = true → exec (.censusWindowEnd n) s = .next { s.elapse d with
      books := (b.modifyInvoice n (fun r =>
        { r with phase := .none, recount := false, tallies := [], state := .stale })).startCensus n })
    ∧ (∀ v : View, r.recount = false →
        v = (if s.books.ownPackedCount n + (r.tallies.map (·.packed)).sum = s.books.packedCount n then .whole
          else .short) →
        exec (.censusWindowEnd n) s = .next { s.elapse d with
          books := (b.modifyInvoice n (fun r =>
            { r with phase := .none, recount := false, tallies := [], state := .active, view := v })).raiseNotice
              .viewCurrent (some n) none (some (if v = .whole then 1 else 2)) }))
  ∧ (∀ (s : State) (n : Nat) (r : Invoice) (w : Round) (ends : Time) (d : Nat) (b : Books), s.books.invoice? n = some r →
      s.books.round? n = some w → w.phase = .window ends → d = msUntil ends s.books.time →
      b = { s.books with time := later s.books.time d } →
      ((∃ x ∈ r.participants, ∀ a ∈ w.answers, a.station ≠ x) →
        (w.number = 1 → exec (.closeWindowEnd n) s = .next { s.elapse d with
          books := (b.modifyRound n (fun w => { w with number := 2, phase := .callQueued })).queueFrame none
            (.closeCall n 2 (s.books.packedCount n) r.planned) })
        ∧ (w.number ≠ 1 → exec (.closeWindowEnd n) s = .next { s.elapse d with books := b.completeRound n }))
      ∧ ((∀ x ∈ r.participants, ∃ a ∈ w.answers, a.station = x) →
        ((∃ a ∈ w.answers, a.inProgress = 1) → exec (.closeWindowEnd n) s = .next { s.elapse d with
          books := b.modifyRound n (fun w => { w with phase := .extension (later b.time 2000), extensions := 1 }) })
        ∧ ((∀ a ∈ w.answers, a.inProgress ≠ 1) →
          exec (.closeWindowEnd n) s = .next { s.elapse d with books := b.completeRound n })))
  ∧ (∀ (s : State) (n : Nat) (w : Round) (ends : Time) (d : Nat) (b : Books), s.books.round? n = some w →
      w.phase = .extension ends → d = msUntil ends s.books.time → b = { s.books with time := later s.books.time d } →
      ((∃ a ∈ w.answers, a.inProgress = 1) → w.extensions < 3 →
        exec (.extensionEnd n) s = .next { s.elapse d with
          books := b.modifyRound n (fun x =>
            { x with phase := .extension (later b.time 2000), extensions := w.extensions + 1 }) })
      ∧ (((∀ a ∈ w.answers, a.inProgress ≠ 1) ∨ 3 ≤ w.extensions) →
        exec (.extensionEnd n) s = .next { s.elapse d with books := b.completeRound n }))
  ∧ (∀ (b : Books) (n : Nat) (r : Invoice) (w : Round) (cs : List Chest) (l : LotSheet), b.invoice? n = some r →
      b.round? n = some w → cs = b.chests.filter (fun c => c.invoice = n && c.serial?.isSome) →
      l = { invoice := n, mark := r.mark, grade := r.grade, planned := r.planned, packed := cs.length,
            status := if ∃ c ∈ cs, ∃ x, c.serial? = some x ∧ r.planned < x then .mismatched
              else if l.missing = [] then .complete else .short,
            gross := (cs.map (·.gross)).sum, tare := (cs.map (·.tare)).sum, net := (cs.map (·.net)).sum,
            samples := (cs.map (fun c => c.sample.getD 0)).sum,
            offBlend := (cs.filter (fun c => c.offBlend)).length,
            unmarked := (cs.filter (fun c => c.mark = .pending ∨ c.mark = .defect)).length,
            conflicts := (cs.filter (fun c => c.conflict ≠ none)).length,
            missing := (List.range' 1 r.planned).filter (fun x => b.chest? n x = none),
            unconfirmed := r.participants.filter (fun x => ∀ a ∈ w.answers, a.station ≠ x),
            inProgress := (w.answers.filter (fun a => a.inProgress = 1 ∧ a.station ≠ b.straps.station)).map (·.station),
            closerInProgress := decide (∃ a ∈ w.answers, a.inProgress = 1 ∧ a.station = b.straps.station),
            reportedPacked := (w.answers.map (·.packed)).sum, reportedNet := (w.answers.map (·.net)).sum,
            reportedSurrendered := (w.answers.map (·.free)).sum,
            lines := cs.map (fun c =>
              { serial := c.serial?.getD 0, station := c.station, gross := c.gross, tare := c.tare, net := c.net,
                sample := c.sample, offBlend := c.offBlend, unmarked := c.mark = .pending ∨ c.mark = .defect,
                conflict := c.conflict }) } →
      b.completeRound n = ((((({ b with sheets := putBy (fun l => l.invoice) l b.sheets } : Books).queueFrame none
          (.closed n l.status.num l.packed l.missing.length l.net)).enterClosed none n .closer).raiseNotice .closeDone
            (some n) none (some l.status.num)).dropRound n))
  ∧ (∀ (b : Books) (n : Nat), (b.invoice? n = none → b.startCensus n = b)
      ∧ ∀ r, b.invoice? n = some r → b.startCensus n
          = (b.modifyInvoice n (fun r => { r with phase := .queued })).queueFrame none (.census n r.planned))
  ∧ (∀ (b : Books) (n : Nat) (f : Round → Round), (∀ w, (f w).invoice = w.invoice) →
      (b.modifyRound n f).round? n = (b.round? n).map f
      ∧ (∀ k, k ≠ n → (b.modifyRound n f).round? k = b.round? k)
      ∧ b.modifyRound n f = { b with rounds := b.rounds.map (fun w => if w.invoice = n then f w else w) })
  ∧ (∀ (b : Books) (n : Nat), (b.dropRound n).round? n = none
      ∧ (∀ k, k ≠ n → (b.dropRound n).round? k = b.round? k)
      ∧ b.dropRound n = { b with rounds := b.rounds.filter (fun w => w.invoice ≠ n) })
  ∧ (∀ (b : Books) (n : Nat) (a : Answer), (b.round? n = none → b.recordAnswer n a = b)
      ∧ ∀ (w : Round) (r : Invoice) (l : List Answer) (c : Books), b.round? n = some w → b.invoice? n = some r →
          l = putBy (fun x => x.station) a w.answers →
          c = b.modifyRound n (fun w => { w with answers := putBy (fun x => x.station) a w.answers }) →
          (∀ ends, w.phase = .extension ends → (∀ x ∈ r.participants, ∃ y ∈ l, y.station = x) →
            (∀ y ∈ l, y.inProgress ≠ 1) → b.recordAnswer n a = c.completeRound n)
          ∧ (((∀ ends, w.phase ≠ .extension ends) ∨ (∃ x ∈ r.participants, ∀ y ∈ l, y.station ≠ x)
              ∨ ∃ y ∈ l, y.inProgress = 1) → b.recordAnswer n a = c))
  ∧ (∀ (a : Answer) (l : List Answer), l.Pairwise (fun x y => x.station < y.station) →
      (putBy (fun x => x.station) a l).Pairwise (fun x y => x.station < y.station)
      ∧ ∀ x, x ∈ putBy (fun x => x.station) a l ↔ x = a ∨ (x ∈ l ∧ x.station ≠ a.station))

/-! ### The Weigh Channel -/

/-- A clock edge with the frame line high begins a word, dropping one that is incomplete; others add a bit to the word in
progress, and at its 24th it goes to an empty holding register as its signed count, or is lost to a held word.  A good
sample 1 ms later joins the window and makes the reading, clears causes, sets the settle timer to 0 when unsteady, is
handed to the Fill Sequencer, and raises SCALE_SATURATED at 1,000 ms of saturation; 50 ms without one is sample loss.  A
row sent before its moment lets the missing time pass: the model's choice (log 3). -/
def Obligations.WordsSamplesAndLoss : Prop :=
  (∀ (s : State) (b : Bool) (l : List Bool), l.length = 23 →
    (s.weigh.scale ≠ none → exec (.sampleWord (⟨true, b⟩ :: l.map (fun x => ⟨false, x⟩))) s = .next
      { s with weigh := { s.weigh with
          word := none,
          holding := if s.weigh.holding = none then some ⟨(BitVec.ofBoolListBE (b :: l)).toInt, s.books.time⟩
            else s.weigh.holding } })
    ∧ (s.weigh.scale = none → exec (.sampleWord (⟨true, b⟩ :: l.map (fun x => ⟨false, x⟩))) s = .next s))
  ∧ (∀ (s : State) (b : Bool), s.weigh.scale ≠ none →
      exec (.sampleWord [⟨true, b⟩]) s = .next { s with weigh := { s.weigh with word := some [b] } }
      ∧ (s.weigh.word = none → exec (.sampleWord [⟨false, b⟩]) s = .next s)
      ∧ (∀ bits, s.weigh.word = some bits → bits.length < 23 →
          exec (.sampleWord [⟨false, b⟩]) s = .next { s with weigh := { s.weigh with word := some (bits ++ [b]) } }))
  ∧ (∀ (s t : State) (e : SampleEdge) (l : List SampleEdge), exec (.sampleWord [e]) s = .next t →
      exec (.sampleWord (e :: l)) s = exec (.sampleWord l) t)
  ∧ (∀ (s : State) (sc : Scale) (h : Held) (d : Nat) (win : List Sample) (sat : Bool), s.weigh.scale = some sc →
      s.weigh.holding = some h → d = msUntil (h.time + 1) s.books.time →
      sat = decide (8388592 ≤ h.count ∨ h.count ≤ -8388592) →
      win = (s.weigh.window ++ ([⟨h.count, sat⟩] : List Sample)).drop (s.weigh.window.length + 1 - sc.window) →
      ∃ t u : State, exec .goodSample s = .next t ∧ t.books.time = later s.books.time d ∧ t.weigh.scale = some sc
        ∧ t.weigh.holding = none ∧ t.weigh.window = win ∧ t.weigh.lastGood = some (later s.books.time d)
        ∧ t.weigh.lossFound = false
        ∧ t.weigh.saturatedSince = (if sat then some (s.weigh.saturatedSince.getD (later s.books.time d)) else none)
        ∧ ((win.length ≠ sc.window ∨ ∃ x ∈ win, x.saturated = true) →
            t.weigh.reading = none ∧ t.weigh.steady = false)
        ∧ (∀ mean weight : Int, win.length = sc.window → (∀ x ∈ win, x.saturated = false) →
            mean = roundHalfAway (win.map (·.count)).sum sc.window →
            weight = roundHalfAway ((mean - sc.zero) * 1000) sc.c10 →
            t.weigh.reading = some (⟨mean, weight, decide (sc.capacity < weight)⟩ : Reading)
            ∧ (t.weigh.steady = true ↔ ∀ x ∈ win, ∀ y ∈ win,
                roundHalfAway ((x.count - sc.zero) * 1000) sc.c10 - roundHalfAway ((y.count - sc.zero) * 1000) sc.c10
                  ≤ sc.motion))
        ∧ u = ({ s.elapse d with
            weigh := { s.weigh with
              holding := none, window := win, lastGood := some (later s.books.time d), lossFound := false,
              saturatedSince := t.weigh.saturatedSince, saturationRaised := sat && s.weigh.saturationRaised,
              reading := t.weigh.reading, steady := t.weigh.steady,
              timer := if t.weigh.steady then (s.elapse d).weigh.timer else 0 },
            books := if sat then ({ s.books with time := later s.books.time d } : Books).clearCause .sampleLoss
              else (({ s.books with time := later s.books.time d } : Books).clearCause .sampleLoss).clearCause
                .scaleSaturated } : State).readingUpdate
        ∧ ((sat = false ∨ (u.books.station ≠ .online ∧ u.books.station ≠ .halt) ∨ u.saturationDue = false) → t = u)
        ∧ (sat = true → (u.books.station = .online ∨ u.books.station = .halt) → u.saturationDue = true →
            t = ({ u with weigh := { u.weigh with saturationRaised := true } } : State).raiseHalting .scaleSaturated))
  ∧ (∀ (s : State) (last : Time) (d : Nat), s.weigh.lastGood = some last → s.weigh.lossFound = false →
      d = msUntil (last + 50) s.books.time →
      ∃ t u, t = { s.elapse d with weigh := { s.weigh with
            window := [], reading := none, steady := false, saturatedSince := none, saturationRaised := false,
            lossFound := true, timer := 0 } }
        ∧ u = (if s.books.station = .online ∨ s.books.station = .halt then t.raiseHalting .sampleLoss else t)
        ∧ exec .sampleLoss s = .next u
        ∧ (s.books.station = .online → u.books.station = .halt))

/-- A settle completes with the reading as it stands: the request goes, SETTLE_SLOW's cause clears, and the reading reaches
its requester; a zero capture and ZERO SCALE take the zero within the band or raise ZERO_DRIFT.  SETTLE_SLOW comes at 5 s.
A row sent before its moment lets the missing time pass: the model's choice (log 3). -/
def Obligations.SettlesReachTheirRequester : Prop :=
  (∀ (s : State) (q : SettleRequest) (r : Reading) (d : Nat) (t : State), s.weigh.request = some q →
    s.weigh.reading = some r → s.weigh.steady = true → d = s.weigh.settleTime - s.weigh.timer →
    t = { s.elapse d with
      books := ({ s.books with time := later s.books.time d } : Books).clearCause .settleSlow,
      weigh := { s.weigh with request := none, timer := 0 } } →
    (q.who = .fill → exec .settleComplete s = .next (t.fillSettled r))
    ∧ (q.who = .capture →
        (-200 ≤ r.weight → r.weight ≤ 200 → r.isOver = false → exec .settleComplete s = .next
          { t.goIdle with weigh := { t.weigh with scale := t.weigh.scale.map (fun sc => { sc with zero := r.mean }) } })
        ∧ ((r.weight < -200 ∨ 200 < r.weight ∨ r.isOver = true) → exec .settleComplete s = .next
          { t.goIdle with books := t.books.raiseFault .zeroDrift }))
    ∧ (∀ code, q.who = .zeroScale → t.port.command = some code →
        (-200 ≤ r.weight → r.weight ≤ 200 → r.isOver = false → exec .settleComplete s = .next
          { t with
            weigh := { t.weigh with scale := t.weigh.scale.map (fun sc => { sc with zero := r.mean }) },
            port := { t.port with reply := some ⟨code, .ok, beSigned3 r.mean ++ beSigned3 r.weight⟩ } })
        ∧ ((r.weight < -200 ∨ 200 < r.weight ∨ r.isOver = true) → exec .settleComplete s = .next
          { t with
            books := t.books.raiseFault .zeroDrift,
            port := { t.port with reply := some ⟨code, .range, beSigned3 r.weight⟩ } })))
  ∧ (∀ (s : State) (q : SettleRequest) (d : Nat), s.weigh.request = some q → q.slow = false → q.who ≠ .zeroScale →
      d = msUntil (q.time + 5000) s.books.time →
      exec .settleSlow s = .next { s.elapse d with
        books := ({ s.books with time := later s.books.time d } : Books).raiseFault .settleSlow,
        weigh := { (s.elapse d).weigh with request := some { q with slow := true } } })
  ∧ (∀ (s : State) (d : Nat), s.elapse d = { s with
      books := { s.books with time := later s.books.time d },
      weigh := { s.weigh with timer :=
        if s.weigh.request ≠ none ∧ s.weigh.steady = true then min s.weigh.settleTime (s.weigh.timer + d)
        else s.weigh.timer },
      filler := { s.filler with
        flow := if s.filler.gate = .closed then s.filler.flow
          else s.filler.flow.map (fun w => ⟨w.reference, min 1500 (w.timer + d)⟩),
        rejectTimer := if s.filler.step = .reject ∧ s.pins.hold = false then min 200 (s.filler.rejectTimer + d)
          else s.filler.rejectTimer },
      port := match s.port.busy, s.port.reply with
        | true, some r => if d = 0 then s.port
          else { busy := false, ready := true, command := none, reply := none, buffer := some r, miso := s.port.miso }
        | _, _ => s.port })

/-! ### The lane -/

/-- FEED(k) sets its cutoffs at entry and its gate by the net at every valid reading update; at the fine cutoff the feed ends
in a settle; an invalid reading closes the gate, and OVER with a gate open rejects the chest, judged before a cutoff at the
same update (log 16); a gate that opens again keeps the old no-flow reference (log 17).  TOPUP is fed likewise; in the
other steps the last net alone follows.  A gate shows on the feeder's coarse and fine outputs. -/
def Obligations.FeedsFollowTheNet : Prop :=
  (∀ (s : State) (k : Nat) (f : Fill) (c : CompState) (r : Reading) (tare net : Int), s.filler.fill = some f → 1 ≤ k →
    f.comps[k - 1]? = some c → s.weigh.reading = some r → f.tare = some tare → net = r.weight - tare →
    (c.fineCut.getD 0 ≤ net → s.feedGate k = (s.toStep (.settle k)).askSettle .fill)
    ∧ (net < c.fineCut.getD 0 → ∀ (coarse : Bool) (u : FlowWatch),
        coarse = decide (net < c.coarseCut.getD 0 ∧ c.fine = false) →
        u = (match s.filler.flow with
          | none => ⟨net, 0⟩
          | some w => if s.filler.gate ≠ .closed ∧ w.reference + 5 ≤ net then ⟨net, 0⟩ else w) →
        s.feedGate k = { s with filler := { s.filler with
          gate := if coarse then .coarse c.feeder else .fine c.feeder,
          flow := some u,
          fill := some { f with
            comps := f.comps.set (k - 1) { c with opened := true, fine := c.fine || !coarse } } } })
    ∧ (∀ c', c' = { c with
          coarseCut := some (max 0 ((c.cumulative : Int) - s.books.fineBand c.feeder)),
          fineCut := some (max 0 ((c.cumulative : Int) - s.inflight c.feeder)) } →
        s.enterFeed k = (({ s with filler := { s.filler with
          step := .feed k, gate := .closed, flow := none,
          fill := some { f with comps := f.comps.set (k - 1) c' } } } : State).feedGate k)))
  ∧ (∀ s : State, s.weigh.reading = none →
      s.readingUpdate = { s with filler := { s.filler with gate := .closed } })
  ∧ (∀ (s : State) (f : Fill) (r : Reading) (tare : Int) (t : State),
      s.filler.fill = some f → s.weigh.reading = some r → f.tare = some tare →
      t = { s with filler := { s.filler with fill := some { f with lastNet := some (r.weight - tare) } } } →
      (s.pins.hold = true → s.readingUpdate = t)
      ∧ (∀ k, s.pins.hold = false → s.filler.step = .feed k →
          (s.filler.gate ≠ .closed → r.isOver = true → s.readingUpdate = t.cutFill.enterReject .overweight)
          ∧ ((s.filler.gate = .closed ∨ r.isOver = false) → s.readingUpdate = t.feedGate k))
      ∧ (s.pins.hold = false → s.filler.step = .topup →
          (f.topupEnd ≠ none → s.readingUpdate = t)
          ∧ (f.topupEnd = none → s.filler.gate ≠ .closed → r.isOver = true →
              s.readingUpdate = t.cutFill.enterReject .overweight)
          ∧ (f.topupEnd = none → (s.filler.gate = .closed ∨ r.isOver = false) → s.readingUpdate = t.topupGate))
      ∧ (s.filler.step ≠ .topup → (∀ k, s.filler.step ≠ .feed k) → s.readingUpdate = t))
  ∧ (∀ s : State, ∀ r, s.weigh.reading = some r → (s.filler.fill = none ∨ ∃ f, s.filler.fill = some f ∧ f.tare = none) →
      s.filler.step ≠ .topup → (∀ k, s.filler.step ≠ .feed k) → s.readingUpdate = s)
  ∧ (∀ (s : State) (k : Nat),
      (s.coarseOut k = true ↔ s.filler.gate = .coarse k ∧ s.pins.hold = false ∧ s.books.station ≠ .offline)
      ∧ (s.fineOut k = true ↔ s.filler.gate = .fine k ∧ s.pins.hold = false ∧ s.books.station ≠ .offline))

/-- The settled tare is judged by its window; SETTLE(k) gives the actual and adapts the feeder; CHECK judges the net by the
tolerance; TOPUP takes the largest share whose bin is not EMPTY, feeds it fine below its cutoff, and asks for a settle at
the cutoff; with no such bin the chest is UNDER.  The model's choices: the old reference stands at the update that opens a
gate again (log 17), and a top-up that finds the net at its cutoff has ended there (log 15). -/
def Obligations.SettledReadingsAreJudged : Prop :=
  (∀ (s : State) (f : Fill) (r : Reading), s.filler.fill = some f → s.filler.step = .tare →
    ((r.isOver = true ∨ r.weight < f.tareMin ∨ f.tareMax < r.weight) → s.fillSettled r = s.enterReject .tareRange)
    ∧ (r.isOver = false → f.tareMin ≤ r.weight → r.weight ≤ f.tareMax →
        s.fillSettled r = ({ s with filler := { s.filler with
          fill := some { f with tare := some r.weight, lastNet := some 0 } } } : State).enterFeed 1))
  ∧ (∀ (s : State) (f : Fill) (r : Reading) (k : Nat) (c : CompState) (tare net e : Int) (t : State),
      s.filler.fill = some f → s.filler.step = .settle k → 1 ≤ k → f.comps[k - 1]? = some c → f.tare = some tare →
      net = r.weight - tare → e = net - c.cumulative →
      t = { s with filler := { s.filler with
        fill := some { f with comps := f.comps.set (k - 1) { c with
          settled := some net,
          actual := net - (if k = 1 then 0 else ((f.comps[k - 2]?).bind (·.settled)).getD 0) } } } } →
      ∀ t', (((c.opened = false ∨ c.short = true) ∧ t' = t)
          ∨ (c.opened = true ∧ c.short = false ∧ -200 ≤ e ∧ e ≤ 200
            ∧ t' = { t with filler := { t.filler with
                inflight := s.filler.inflight.setIfInBounds (c.feeder - 1)
                  (max 0 (min 300 ((s.inflight c.feeder : Int) + roundHalfAway e 4))).toNat } })
          ∨ (c.opened = true ∧ c.short = false ∧ (e < -200 ∨ 200 < e)
            ∧ t' = { t with books := s.books.raiseNotice .wildFill (some f.invoice) none (some c.feeder) })) →
        s.fillSettled r = if k < f.comps.length then t'.enterFeed (k + 1) else t'.check net)
  ∧ (∀ (s : State) (f : Fill) (r : Reading) (k : Nat) (c : CompState) (tare net before : Int), s.filler.fill = some f →
      s.filler.step = .topup → f.topupComp = some k → 1 ≤ k → f.comps[k - 1]? = some c → f.tare = some tare →
      f.netBefore = some before → net = r.weight - tare →
      s.fillSettled r = ({ s with filler := { s.filler with
        fill := some { f with
          comps := f.comps.set (k - 1) { c with actual := c.actual + (net - before) } } } } : State).check net)
  ∧ (∀ (s : State) (f : Fill) (net : Int) (t : State), s.filler.fill = some f →
      t = (s.toStep .check).modifyFill (fun f => { f with net := some net }) →
      ((f.target : Int) + f.tolerance < net → s.check net = t.enterReject .overweight)
      ∧ ((f.target : Int) - f.tolerance ≤ net → net ≤ f.target + f.tolerance → s.check net = t.accept)
      ∧ (net < (f.target : Int) - f.tolerance → f.topupDone = true → s.check net = t.enterReject .underweight)
      ∧ (net < (f.target : Int) - f.tolerance → f.topupDone = false → s.check net = t.enterTopup net))
  ∧ (∀ (b : Books) (l : List Component),
      ((∀ c ∈ l, (b.bin c.bin).state = .empty) → b.chooseTopup 1 l none = none)
      ∧ (∀ (pre post : List Component) (c : Component), l = pre ++ c :: post → (b.bin c.bin).state ≠ .empty →
          (∀ x ∈ pre, (b.bin x.bin).state = .empty ∨ x.share < c.share) →
          (∀ x ∈ post, (b.bin x.bin).state = .empty ∨ x.share ≤ c.share) →
          b.chooseTopup 1 l none = some (pre.length + 1)))
  ∧ (∀ (s : State) (f : Fill) (net : Int) (choice : Option Nat) (t : State), s.filler.fill = some f →
      choice = s.books.chooseTopup 1 f.recipe none →
      t = { s with filler := { s.filler with
        step := .topup, gate := .closed, flow := none,
        fill := some { f with topupDone := true, netBefore := some net, topupComp := choice, topupEnd := none } } } →
      (choice = none → s.enterTopup net = t.enterReject .underweight)
      ∧ (choice ≠ none → s.enterTopup net = t.topupGate))
  ∧ (∀ (s : State) (f : Fill) (k : Nat) (c : CompState) (r : Reading) (tare net : Int), s.filler.fill = some f →
      f.topupComp = some k → 1 ≤ k → f.comps[k - 1]? = some c → f.tare = some tare → net = r.weight - tare →
      (s.weigh.reading = none → s.topupGate = s)
      ∧ (s.weigh.reading = some r → (f.target : Int) - s.inflight c.feeder ≤ net →
          s.topupGate = ({ s with filler := { s.filler with
            step := .topup, gate := .closed, flow := none,
            fill := some { f with topupEnd := some .cutoff } } } : State).askSettle .fill)
      ∧ (s.weigh.reading = some r → net < (f.target : Int) - s.inflight c.feeder → ∀ u : FlowWatch,
          u = (match s.filler.flow with
            | none => ⟨net, 0⟩
            | some w => if s.filler.gate ≠ .closed ∧ w.reference + 5 ≤ net then ⟨net, 0⟩ else w) →
          s.topupGate = { s with filler := { s.filler with
            gate := .fine c.feeder, flow := some u,
            fill := some { f with comps := f.comps.set (k - 1) { c with opened := true, fine := true } } } }))

/-- ACCEPT: an orphan when the invoice is CLOSED or its record has been freed, opened again under the number or not, SURPLUS
with no serial free, else the lowest free serial, with the record, its draws and OFF_BLEND, the CHEST frame, the notice and
the end of the fill, then MARK with a head or CLEAR without.  A mark starts for its requester with the job, the lines of the
records, position 1 and the first SHIFT's bits on DATA-OUT.  The model's choices: without a head the MARK frame is queued
before CLEAR (log 14), a draw is not held to 65,535 (log 51), and what the head's path holds is free (log 38). -/
def Obligations.AcceptGivesTheLowestSerial : Prop :=
  (∀ (s : State) (f : Fill) (tare net : Int) (c : Chest) (t : State), s.filler.fill = some f → f.tare = some tare →
    f.net = some net → t = s.toStep .accept →
    c = { invoice := f.invoice, key := .packed 0, station := s.books.straps.station, origin := .own,
          gross := roundHalfUp (tare + net).toNat 10, tare := roundHalfUp tare.toNat 10,
          net := roundHalfUp (tare + net).toNat 10 - roundHalfUp tare.toNat 10, sample := none,
          offBlend := f.offBlend net, mark := if s.marker.head = none then .none else .pending, draws := f.draws,
          conflict := none } →
    (∀ b, (((∃ r, s.books.invoice? f.invoice = some r ∧ r.state = .closed) ∧ f.freed = false
            ∧ b = s.books.fillOrphan { c with key := .orphan f.reservation, mark := .none })
          ∨ ((s.books.invoice? f.invoice = none ∨ f.freed = true) ∧ b = s.books.dropReservation)) →
        s.accept = (t.setBooks (((b.raiseFault .chestOrphan).raiseNotice .orphanPacked (some f.invoice) none
          (some f.reservation)).queueFrame none (.chest f.invoice ⟨0, 0, 0, 0, 0, f.draws⟩))).enterClear)
    ∧ (∀ r, s.books.invoice? f.invoice = some r → f.freed = false → r.state ≠ .closed →
        (r.free = [] → s.accept = t.enterReject .surplus)
        ∧ (∀ x l b, r.free = x :: l →
            b = ((((s.books.modifyInvoice f.invoice (fun r => { r with free := r.free.erase x })).fillReserved
                { c with key := .packed x } x).queueFrame none (.chest f.invoice
                  ⟨x, c.gross, c.tare, c.net, if c.offBlend then 1 else 0, c.draws⟩)).raiseNotice .chestAccepted
                    (some f.invoice) (some x) (some c.net)).fillEnded f.invoice →
            ∀ u, u = ({ t with books := b, filler := { t.filler with fill := some { f with serial := some x } } } : State) →
            (s.marker.head ≠ none → s.accept = (u.toStep .mark).startMark .fill f.invoice x)
            ∧ (s.marker.head = none →
                s.accept = { u with books := b.queueFrame none (.mark f.invoice x 4) }.enterClear))))
  ∧ (∀ (s : State) (who : MarkFor) (n k : Nat) (h : Head) (r : Invoice) (c : Chest), s.marker.head = some h →
      s.books.invoice? n = some r → s.books.chest? n k = some c →
      ∃ (j : Job) (path : BitVec 32), s.startMark who n k = { s with marker := { s.marker with
          chain := .shift, job := some j, path := path, unknown := s.marker.unknown + 1,
          sends := (List.range 32).map (fun i => (if h.activeLow then ~~~(columnOf j 1)
            else columnOf j 1).getLsbD (if h.nozzle32First then 31 - i else i)) } }
        ∧ j = { invoice := n, serial := k, requester := who,
                line1 := (r.mark ++ [0x20] ++ r.grade).take 20, line2 := line2Of n k c.net c.gross,
                markLength := 12 * max j.line1.length j.line2.length - 2,
                positions := 12 * max j.line1.length j.line2.length + 10, position := 1, late := 0,
                usedRows := nozzleSet (markUses j.line1 j.line2), ready := none, defect := false })
  ∧ (∀ (f : Fill), f.draws.length = min f.recipe.length f.comps.length
      ∧ ∀ (i : Nat) (c : Component) (p : CompState), f.recipe[i]? = some c → f.comps[i]? = some p →
          f.draws[i]? = some ⟨c.bin, ((max 0 p.actual).toNat + 5) / 10⟩)
  ∧ (∀ (f : Fill) (net : Int), 0 < net → (f.offBlend net = true ↔ ∃ (i : Nat) (c : Component) (p : CompState) (q : Nat),
      f.recipe[i]? = some c ∧ f.comps[i]? = some p
        ∧ q = (2000 * (max 0 p.actual).toNat + net.toNat) / (2 * net.toNat)
        ∧ (f.shareTolerance < q - c.share ∨ f.shareTolerance < c.share - q)))
  ∧ (∀ (b : Books) (c : Chest) (d : Books), d = ({ b with reservation := none } : Books).putChest c →
      b.fillOrphan c = if 2 ≤ d.freeSlots then d.clearCause .storeFull else d)

/-- No flow for 1,500 ms closes the gate, sets the short mark, marks the bin EMPTY with a BIN frame and goes to the settle,
in FEED(k) and in TOPUP; the reject pulse ends after 200 ms in CLEAR, and REJECT is on while it runs.  A row sent before
its moment lets the missing time pass: the model's choice (log 3). -/
def Obligations.NoFlowAndTheRejectPulse : Prop :=
  (∀ (s : State) (w : FlowWatch) (k d : Nat) (f : Fill) (c : CompState) (rc : Component) (b : Books) (t : State),
    s.filler.flow = some w → s.filler.gate ≠ .closed → s.filler.fill = some f → 1 ≤ k →
    f.comps[k - 1]? = some c → f.recipe[k - 1]? = some rc → d = 1500 - w.timer →
    b = ({ s.books with time := later s.books.time d } : Books).setBin rc.bin { s.books.bin rc.bin with
      state := .empty, remaining := some 0,
      batch := if (s.books.bin rc.bin).state = .unknown then some 0 else (s.books.bin rc.bin).batch } →
    t = { s.elapse d with
      books := b.queueFrame none (.bin 0 rc.bin 2 ((b.bin rc.bin).batch.getD 0) 0),
      filler := { s.filler with
        step := .settle k, gate := .closed, flow := none, rejectTimer := (s.elapse d).filler.rejectTimer,
        fill := some { f with comps := f.comps.set (k - 1) { c with short := true } } } } →
    (s.filler.step = .feed k → exec .noFlow s = .next (t.askSettle .fill))
    ∧ (s.filler.step = .topup → f.topupComp = some k → exec .noFlow s = .next (({ t with filler := { t.filler with
        step := .topup,
        fill := some { f with
          comps := f.comps.set (k - 1) { c with short := true }, topupEnd := some .noFlow } } } : State).askSettle .fill)))
  ∧ (∀ s : State, s.filler.step = .reject → s.pins.hold = false →
      exec .rejectPulseEnd s = .next (s.elapse (200 - s.filler.rejectTimer)).enterClear)
  ∧ (∀ s : State, s.rejectOut = true ↔ s.filler.step = .reject ∧ s.pins.hold = false ∧ s.books.station ≠ .offline
      ∧ s.inReset = false)

/-- CHEST: a rise starts an ARMED fill and ends a capture or a waiting ZERO SCALE, a fall in TARE to TOPUP is chest loss and
in CLEAR clears the lane; under HOLD no edge is taken.  HOLD closes gates and withdraws settles; its end restarts the step.
OUTFEED RUN is on in MARK, in CLEAR while CHEST is high and for a REMARK mark.  The model's choices: TOPUP feeds again
after HOLD unless its feed had ended at the cutoff (log 15), a rise under HOLD ends a waiting ZERO SCALE too (log 22), and
that one's settle timer runs on under HOLD (log 47). -/
def Obligations.ChestAndHoldInputs : Prop :=
  (∀ (s : State) (level : Bool), s.pins.chest ≠ level → s.inReset = false →
    (s.weigh.request = none ∨ ∃ q, s.weigh.request = some q ∧ q.who ≠ .zeroScale) →
    ∀ t : State, t = { s with pins := { s.pins with chest := level } } →
      (s.pins.hold = true → exec (.chestEdge level) s = .next t)
      ∧ (s.pins.hold = false → ∀ u : State, u = { t with filler := { s.filler with remembered := level } } →
        (level = true →
          (s.filler.step = .armed → exec (.chestEdge level) s = .next ((u.toStep .tare).askSettle .fill))
          ∧ (s.filler.step = .clear → (∃ q, s.weigh.request = some q ∧ q.who = .capture) →
              exec (.chestEdge level) s = .next u.withdrawRequest.goIdle)
          ∧ (s.filler.step = .clear → (∀ q, s.weigh.request = some q → q.who ≠ .capture) →
              exec (.chestEdge level) s = .next u)
          ∧ (s.filler.step ≠ .armed → s.filler.step ≠ .clear → exec (.chestEdge level) s = .next u))
        ∧ (level = false →
          (s.filler.step = .clear → exec (.chestEdge level) s = .next u.enterClear)
          ∧ ((s.filler.step = .tare ∨ s.filler.step = .topup ∨ ∃ k, s.filler.step = .feed k ∨ s.filler.step = .settle k) →
              exec (.chestEdge level) s = .next (u.cutFill.enterReject .chestLost))
          ∧ (s.filler.step ∈ ([.idle, .armed, .check, .accept, .reject, .mark] : List FillStep) →
              exec (.chestEdge level) s = .next u))))
  ∧ (∀ (s : State) (q : SettleRequest) (code : Byte), s.pins.chest = false → s.inReset = false →
      s.weigh.request = some q → q.who = .zeroScale → s.port.command = some code → s.filler.step = .idle →
      exec (.chestEdge true) s = .next { s with
        pins := { s.pins with chest := true },
        weigh := { s.weigh with request := none, timer := 0 },
        filler := { s.filler with remembered := if s.pins.hold then s.filler.remembered else true },
        port := { s.port with reply := some ⟨code, .busy, []⟩ } })
  ∧ (∀ s : State, s.pins.hold = false → exec .holdActive s = .next { s with
      pins := { s.pins with hold := true },
      weigh := (if ∃ q, s.weigh.request = some q ∧ q.who ≠ .zeroScale then { s.weigh with request := none, timer := 0 }
        else s.weigh),
      filler := { s.filler with gate := .closed, flow := none, rejectTimer := 0 },
      marker := if s.marker.firing = none then s.marker else s.marker.clearLatch })
  ∧ (∀ s : State, s.pins.hold = true → s.inReset = false →
      ∀ t u : State, t = { s with pins := { s.pins with hold := false } } →
        u = (if s.pins.chest = s.filler.remembered then t else t.chestEdgeAt s.pins.chest) →
        exec .holdEnd s = .next u.restart)
  ∧ (∀ s : State,
      ((s.filler.step = .tare ∨ ∃ k, s.filler.step = .settle k) → s.restart = s.askSettle .fill)
      ∧ (∀ k, s.filler.step = .feed k →
          s.restart = ({ s with filler := { s.filler with flow := none } } : State).feedGate k)
      ∧ (∀ f, s.filler.step = .topup → s.filler.fill = some f →
          (f.topupEnd = some .cutoff → s.restart = s.askSettle .fill)
          ∧ (f.topupEnd ≠ some .cutoff → s.restart = ({ s with filler := { s.filler with
              flow := none, fill := some { f with topupEnd := none } } } : State).topupGate))
      ∧ (s.filler.step = .reject → s.restart = { s with filler := { s.filler with rejectTimer := 0 } })
      ∧ (s.filler.step = .clear → s.restart = s.enterClear)
      ∧ (s.filler.step ∈ ([.idle, .armed, .check, .accept, .mark] : List FillStep) → s.restart = s))
  ∧ (∀ s : State, s.outfeedRun = true ↔ (s.filler.step = .mark ∨ (s.filler.step = .clear ∧ s.pins.chest = true)
      ∨ ∃ j, s.marker.job = some j ∧ j.requester = .remark)
      ∧ s.pins.hold = false ∧ s.books.station ≠ .offline ∧ s.inReset = false)

/-- A pulse in WAIT latches the column, fires, and starts the next SHIFT or ends the mark; in SHIFT it is late, a defect with
MARK_LATE; with no mark it does nothing.  A SHIFT leaves in the path the bits that it sent and its end checks the nozzles
once and waits or skips.  The firing pulse ends with the latch cleared.  HALT ends a mark early, a defect when columns are
unfired.  The model's choices: what a SHIFT cut short leaves is free (log 42), CLK and MODE rest and DATA-OUT is 0 between
operations (log 39). -/
def Obligations.MarksFollowTheEncoder : Prop :=
  (∀ (s : State), s.marker.job = none → exec .encoderPulse s = .next s)
  ∧ (∀ (s : State) (j : Job) (h : Head), s.marker.job = some j → s.marker.head = some h →
    (s.pins.hold = true → exec .encoderPulse s = .next s)
    ∧ (s.pins.hold = false → s.marker.chain = .wait → j.position < j.positions → ∀ column : BitVec 32,
        column = columnOf j (j.position + 1) →
        exec .encoderPulse s = .next { s with marker := { s.marker with
          latch := s.marker.path, firing := some s.books.time, chain := .shift,
          job := some { j with position := j.position + 1 },
          sends := (List.range 32).map (fun i =>
            (if h.activeLow then ~~~column else column).getLsbD (if h.nozzle32First then 31 - i else i)) } })
    ∧ (s.pins.hold = false → s.marker.chain = .wait → j.positions ≤ j.position →
        exec .encoderPulse s = .next (({ s with marker := { s.marker with
          latch := s.marker.path, firing := some s.books.time } } : State).endMark j))
    ∧ (s.pins.hold = false → (s.marker.chain = .shift ∨ s.marker.chain = .capture) →
        exec .encoderPulse s = .next { s with
          marker := { s.marker with job := some { j with late := j.late + 1, defect := true } },
          books := s.books.raiseFault .markLate }))
  ∧ (∀ (s : State) (j j' : Job) (h : Head) (x : BitVec 32) (bad : Bool) (t : State), s.marker.job = some j →
      s.marker.head = some h → s.marker.chain = .shift →
      bad = decide (j.usedRows &&& ~~~(nozzleSet (fun n => x.getLsbD (if h.nozzle32First then 32 - n else n - 1))) ≠ 0) →
      j' = (if j.ready = none then { j with
          ready := some (nozzleSet (fun n => x.getLsbD (if h.nozzle32First then 32 - n else n - 1))),
          defect := j.defect || bad } else j) →
      t = { s with
        marker := { s.marker with
          job := some j',
          path := nozzleSet (fun n => (s.marker.sends[if h.nozzle32First then 32 - n else n - 1]?).getD false) },
        books := if j.ready ≠ none then s.books
          else if bad then s.books.raiseFault .headNozzle else s.books.clearCause .headNozzle } →
      (j.late = 0 → exec (.shiftDone x) s = .next { t with marker := { t.marker with chain := .wait } })
      ∧ (0 < j.late → j.position + j.late ≤ j.positions → ∀ column : BitVec 32,
          column = columnOf j (j.position + j.late) → exec (.shiftDone x) s = .next
          { t with marker := { t.marker with
            job := some { j' with position := j.position + j.late, late := 0 },
            sends := (List.range 32).map (fun i =>
              (if h.activeLow then ~~~column else column).getLsbD (if h.nozzle32First then 31 - i else i)) } })
      ∧ (0 < j.late → j.positions < j.position + j.late →
          exec (.shiftDone x) s = .next (t.endMark { j' with late := 0 })))
  ∧ (∀ (h : Head) (sent : List Bool) (fire : BitVec 32),
      sent = (List.range 32).map (fun i =>
        (if h.activeLow then ~~~fire else fire).getLsbD (if h.nozzle32First then 31 - i else i)) →
      nozzleSet (fun n => (sent[if h.nozzle32First then 32 - n else n - 1]?).getD false)
        = if h.activeLow then ~~~fire else fire)
  ∧ (∀ (p : Nat → Bool) (n : Nat), (nozzleSet p).getLsbD n = (decide (n < 32) && p (n + 1)))
  ∧ (∀ (s : State) (h : Head) (at_ : Time), s.marker.firing = some at_ → s.marker.head = some h →
      exec .firingPulseEnd s = .next { s with marker := { s.marker with
        firing := none, latch := if h.activeLow then BitVec.allOnes 32 else 0 } })
  ∧ (∀ (s : State) (j : Job) (m : MarkStatus) (t : State), m = (if j.defect then .defect else .good) →
      t = { s with marker := { s.marker.clearLatch with chain := .headIdle, job := none } } →
      (∀ c, s.books.chest? j.invoice j.serial = some c → c.origin = .own →
        ∀ u : State, u = { t with books := ((s.books.putChest { c with mark := m }).queueFrame none
            (.mark j.invoice j.serial m.num)).raiseNotice .markDone (some j.invoice) (some j.serial) (some m.num) } →
          s.endMark j = if j.requester = .fill ∧ s.filler.step = .mark then u.enterClear else u)
      ∧ ((∀ c, s.books.chest? j.invoice j.serial = some c → c.origin = .heard) →
        ∀ u : State, u = { t with
            books := s.books.raiseNotice .markDone (some j.invoice) (some j.serial) (some 0) } →
          s.endMark j = if j.requester = .fill ∧ s.filler.step = .mark then u.enterClear else u))
  ∧ (∀ s : State, (s.marker.job = none → s.haltMark = s)
      ∧ ∀ j, s.marker.job = some j → ∃ (path : BitVec 32) (k : Nat),
          (s.marker.chain ≠ .shift → path = s.marker.path ∧ k = s.marker.unknown)
          ∧ s.haltMark = ({ s with marker := { s.marker with path := path, unknown := k } } : State).endMark
              { j with defect := j.defect || decide (j.position ≤ j.markLength) })
  ∧ (∀ s : State, ((s.marker.chain = .headIdle ∨ s.marker.chain = .wait) → s.chainOut = .rest ∧ s.dataOut = [false])
      ∧ (s.marker.chain = .capture → s.chainOut = .operation .capture ∧ s.dataOut = [false])
      ∧ (s.marker.chain = .shift → s.chainOut = .operation .shift ∧ s.dataOut = s.marker.sends))

/-! ### Shared operations of the tables -/

/-- A queued frame joins as the newest entry with count 0 while fewer than 8 entries, fewer than 7 of them not TALLY, are
held; else it is dropped with TX_QUEUE_FULL and applied as one that leaves unheard, but for a CLAIM. -/
def Obligations.QueueFrameJoinsOrDrops : Prop :=
  ∀ (b : Books) (fill : Option Nat) (f : Frame) (others : Nat),
    others = (b.tx.filter (fun e => e.frame.kind ≠ 3)).length →
    ((b.tx.length < 8 ∧ (f.kind = 3 ∨ others < 7)) →
      b.queueFrame fill f
        = { b with tx := b.tx ++ [{ frame := f, attempts := 0, underWay := false, removal := .none }] })
    ∧ ((8 ≤ b.tx.length ∨ (f.kind ≠ 3 ∧ 7 ≤ others)) →
      (f.kind = 4 → b.queueFrame fill f = b.raiseFault .txQueueFull)
      ∧ (f.kind ≠ 4 → b.queueFrame fill f = (b.raiseFault .txQueueFull).applyOwn fill f))

/-- A raised fault makes its entry or counts it, with its times and cause; a clearing condition makes a present cause
CLEARED and has no other effect; a raised notice joins as the newest of at most 32 or is dropped with NOTICE_OVERFLOW.
NOTICE is asserted while the queue or the list holds anything. -/
def Obligations.RaisesReachTheListAndTheQueue : Prop :=
  (∀ (b : Books) (c : FaultCode), (∀ e ∈ b.faults, e.code ≠ c) →
    b.faults.Pairwise (fun d e => d.code.num < e.code.num) →
    ∃ l : List FaultEntry, b.raiseFault c = { b with faults := l }
      ∧ l.Pairwise (fun d e => d.code.num < e.code.num)
      ∧ (∀ e, e ∈ l ↔ e ∈ b.faults ∨ e = {
          code := c, count := 1,
          cause := if c ∈ ([.lineDrive, .lineDispute, .viewLost, .planMismatch, .txQueueFull, .markLate, .binOverdraw,
            .zeroDrift, .chestOrphan] : List FaultCode) then .cleared else .present,
          first := b.time, latest := b.time }))
  ∧ (∀ (b : Books) (pre post : List FaultEntry) (e : FaultEntry), b.faults = pre ++ e :: post →
      b.faults.Pairwise (fun d e => d.code.num < e.code.num) →
      b.raiseFault e.code = { b with faults := pre ++ { e with
          count := min 255 (e.count + 1), latest := b.time,
          cause := if e.code ∈ ([.lineDrive, .lineDispute, .viewLost, .planMismatch, .txQueueFull, .markLate,
            .binOverdraw, .zeroDrift, .chestOrphan] : List FaultCode) then .cleared else .present } :: post }
      ∧ b.clearCause e.code = { b with faults := pre ++ { e with cause := .cleared } :: post }
      ∧ (e.cause = .cleared → b.clearCause e.code = b))
  ∧ (∀ (b : Books) (c : FaultCode), (∀ e ∈ b.faults, e.code ≠ c) → b.clearCause c = b)
  ∧ (∀ (b : Books) (k : NoticeKind) (i n v : Option Nat),
      (b.notices.length < 32 →
        b.raiseNotice k i n v = { b with notices := b.notices ++ [⟨k, b.time, i, n, v⟩] })
      ∧ (32 ≤ b.notices.length → b.raiseNotice k i n v = b.raiseFault .noticeOverflow))
  ∧ (∀ s : State, s.noticeOut = true ↔ s.books.notices ≠ [] ∨ s.books.faults ≠ [])

/-- FULL follows the packed count against the ceiling in an open state, with INVOICE_FULL as it sets; STORE_FULL's cause
clears when two slots are free; a record put in the store stands under its key, in the place of any that stood there, HEARD
or OWN, and every other record stands; a filled reservation takes the record so; one given up frees its slot alone. -/
def Obligations.FullAndStoreFollowTheRecords : Prop :=
  (∀ (b : Books) (n : Nat) (r : Invoice), b.invoice? n = some r →
    ((r.state = .closing ∨ r.state = .closed) → b.evalFull n = b)
    ∧ ((r.state = .census ∨ r.state = .active ∨ r.state = .stale) → ∀ (count : Nat) (c : Books),
        count = (b.chests.filter (fun c => c.invoice = n && c.serial?.isSome)).length →
        c = b.modifyInvoice n (fun r => { r with full := decide (r.ceiling ≤ count) }) →
        (∀ x ∈ b.invoices, x.number = n → x = r) →
        b.evalFull n = if r.ceiling ≤ count ∧ r.full = false then c.raiseNotice .invoiceFull (some n) none none else c))
  ∧ (∀ (b : Books) (p : Chest → Bool) (c : Books), c = { b with chests := b.chests.filter (fun x => !p x) } →
      b.dropChests p = if c.chests.length + (if c.reservation = none then 0 else 1) ≤ 254 then c.clearCause .storeFull
        else c)
  ∧ (∀ (b : Books) (c : Chest) (k : Nat), b.fillReserved c k
      = ((({ b with reservation := none } : Books).putChest { c with
          key := .packed k, conflict := (b.chest? c.invoice k).map (·.station) }).noteSlots).evalFull c.invoice)
  ∧ (∀ (b : Books) (c : Chest), b.chests.Pairwise (fun x y => x.order < y.order) →
      (∀ x ∈ c :: b.chests, ∀ k, (x.key = .packed k → k ≤ 99) ∧ (x.key = .orphan k → k ≤ 255)) →
      (b.putChest c).chests.Pairwise (fun x y => x.order < y.order)
      ∧ (∀ x, x ∈ (b.putChest c).chests ↔ x = c ∨ (x ∈ b.chests ∧ ¬ (x.invoice = c.invoice ∧ x.key = c.key)))
      ∧ (∀ k, c.key = .packed k → (b.putChest c).chest? c.invoice k = some c)
      ∧ (∀ n k, ¬ (n = c.invoice ∧ c.key = .packed k) → (b.putChest c).chest? n k = b.chest? n k)
      ∧ b.putChest c = { b with chests := (b.putChest c).chests })
  ∧ (∀ (b c : Books), c = { b with reservation := none } →
      b.dropReservation = if b.chests.length ≤ 254 then c.clearCause .storeFull else c)

/-- FILL starts a new batch, LOW with BIN_LOW below the threshold; EMPTY and WITHDRAW keep the batch code but for an UNKNOWN
bin's; the overdraw total and every other bin are kept. -/
def Obligations.BinActionsSetTheRecord : Prop :=
  ∀ (b : Books) (n m q : Nat), 1 ≤ n → n ≤ 64 →
    (q < b.lowThreshold → b.binAction n 1 m q
      = (b.setBin n { state := .low, batch := some m, remaining := some q, overdraw := (b.bin n).overdraw }).raiseNotice
        .binLow none none (some n))
    ∧ (b.lowThreshold ≤ q → b.binAction n 1 m q
      = b.setBin n { state := .stocked, batch := some m, remaining := some q, overdraw := (b.bin n).overdraw })
    ∧ ((b.bin n).state = .unknown →
        b.binAction n 2 m q
          = b.setBin n { state := .empty, batch := some m, remaining := some 0, overdraw := (b.bin n).overdraw }
        ∧ b.binAction n 3 m q
          = b.setBin n { state := .withdrawn, batch := some m, remaining := some q, overdraw := (b.bin n).overdraw })
    ∧ ((b.bin n).state ≠ .unknown →
        b.binAction n 2 m q = b.setBin n { b.bin n with state := .empty, remaining := some 0 }
        ∧ b.binAction n 3 m q = b.setBin n { b.bin n with state := .withdrawn })
    ∧ (∀ r : Bin, (b.setBin n r).bin n = r ∧ (∀ k, 1 ≤ k → k ≠ n → (b.setBin n r).bin k = b.bin k)
        ∧ b.setBin n r = { b with bins := (b.setBin n r).bins })

/-- A draw lowers a STOCKED, LOW or WITHDRAWN bin, clamped at 0 with the deficit joining the saturating overdraw total under
BIN_OVERDRAW; a STOCKED bin below the threshold goes LOW with BIN_LOW; UNKNOWN and EMPTY bins and draws of 0 change nothing. -/
def Obligations.DrawsLowerTheBins : Prop :=
  ∀ (b : Books) (n d : Nat), 1 ≤ n → n ≤ 64 →
    ((d = 0 ∨ (b.bin n).state = .unknown ∨ (b.bin n).state = .empty) → b.draw ⟨n, d⟩ = b)
    ∧ (∀ (R : Nat) (r : Bin) (c : Books), 1 ≤ d → (b.bin n).remaining = some R →
        r = { b.bin n with remaining := some (if d ≤ R then R - d else 0),
                           overdraw := if d ≤ R then min 65535 (b.bin n).overdraw
                             else min 65535 ((b.bin n).overdraw + (d - R)) } →
        c = (if d ≤ R then b.setBin n r else (b.setBin n r).raiseFault .binOverdraw) →
        (((b.bin n).state = .low ∨ (b.bin n).state = .withdrawn) → b.draw ⟨n, d⟩ = c)
        ∧ ((b.bin n).state = .stocked → b.lowThreshold ≤ (if d ≤ R then R - d else 0) → b.draw ⟨n, d⟩ = c)
        ∧ ((b.bin n).state = .stocked → (if d ≤ R then R - d else 0) < b.lowThreshold →
            b.draw ⟨n, d⟩ = (c.setBin n { r with state := .low }).raiseNotice .binLow none none (some n)))

/-- Component targets are the floors of T times the share, the last taking what is left, so that they sum to T; adaptation
moves the in-flight value by a quarter of the error, rounded half away from zero, within 0 to 300.  A quotient is rounded
to the nearest whole number, a half up, or away from zero. -/
def Obligations.TargetsSumAndAdaptationIsBounded : Prop :=
  (∀ (T : Nat) (l : List Component) (c : Component), ((l ++ [c]).map (·.share)).sum ≤ 1000 →
    targets T (l ++ [c]) = l.map (fun x => T * x.share / 1000) ++ [T - (l.map (fun x => T * x.share / 1000)).sum]
    ∧ (targets T (l ++ [c])).sum = T)
  ∧ (∀ (v : Nat) (e : Int), adapted v e ≤ 300
      ∧ (∀ q : Int, (4 * q = e ∨ 4 * q - 1 = e ∨ (4 * q + 1 = e) ∨ (4 * q - 2 = e ∧ 0 < e) ∨ (4 * q + 2 = e ∧ e < 0)) →
        (adapted v e : Int) = max 0 (min 300 ((v : Int) + q))))
  ∧ (∀ n d q : Nat, 0 < d → (roundHalfUp n d = q ↔ 2 * d * q ≤ 2 * n + d ∧ 2 * n + d < 2 * d * (q + 1)))
  ∧ (∀ (n : Int) (d : Nat) (q : Int), 0 < d →
      (0 ≤ n → (roundHalfAway n d = q ↔ 2 * d * q - d ≤ 2 * n ∧ 2 * n < 2 * d * q + d))
      ∧ (n < 0 → (roundHalfAway n d = q ↔ 2 * d * q - d < 2 * n ∧ 2 * n ≤ 2 * d * q + d)))

/-! ### HALT and OFFLINE -/

/-- A raise of codes 3 to 5 in ONLINE puts the station in HALT: a fill in progress is cut and rejected HALTED if it has
drawn, else it ends, or runs out its reject or clear, a mark ends, every CLAIM leaves, one with an attempt being applied,
and no lane settle stands; the mark ends as the lane's step does (log 13).  In any other state the raise reaches the list
alone.  Going ONLINE is as GO ONLINE, a sample fault that stands being raised at once. -/
def Obligations.SevereFaultsHaltTheLane : Prop :=
  (∀ (s : State) (c : FaultCode), c = .lineDrive ∨ c = .sampleLoss ∨ c = .scaleSaturated →
    (s.books.station ≠ .online → s.raiseHalting c = { s with books := s.books.raiseFault c })
    ∧ (s.books.station = .online → ∃ t, s.raiseHalting c = t ∧ t.books.station = .halt
        ∧ (∃ e ∈ t.books.faults, e.code = c)
        ∧ t.filler.gate = (if s.filler.step = .reject ∨ s.filler.step = .idle ∨ s.filler.step = .accept
            ∨ (s.filler.step = .clear ∧ s.pins.chest = true) ∨ (s.filler.step = .mark ∧
              (s.marker.job = none ∨ ∃ j, s.marker.job = some j ∧ j.requester = .remark))
          then s.filler.gate else .closed)
        ∧ t.filler.step.inFill = false
        ∧ t.marker.job = none
        ∧ (∀ q, t.weigh.request = some q → q.who = .zeroScale)
        ∧ (∀ e ∈ t.books.tx, e.frame.kind = 4 → e.underWay = true)
        ∧ t.pins = s.pins ∧ t.line = s.line ∧ t.pending = s.pending ∧ t.port = s.port)
    ∧ (s.books.station = .online → ∀ (h t u : State) (claims : TxEntry → Bool),
        h = { s with books := { s.books.raiseFault c with station := .halt } } →
        claims = (fun e => decide (e.frame.kind = 4)) → u = t.haltMark →
        ((∃ f, s.filler.fill = some f ∧ s.filler.step.inFill = true ∧ (∃ x ∈ f.comps, x.opened = true)
            ∧ t = h.cutFill.enterReject .halted)
          ∨ (∃ f, s.filler.fill = some f ∧ s.filler.step = .armed ∧ (∀ x ∈ f.comps, x.opened = false)
            ∧ t = { h with
                books := h.books.dropReservation.chestLost f, weigh := h.withdrawLane.weigh,
                filler :=
                  { s.filler with step := .idle, fill := none, gate := .closed, flow := none, rejectTimer := 0 } })
          ∨ (∃ f, s.filler.fill = some f ∧ s.filler.step.inFill = true ∧ s.filler.step ≠ .armed
            ∧ (∀ x ∈ f.comps, x.opened = false)
            ∧ t = (h.cutFill.setBooks (h.books.dropReservation.chestLost f)).enterClear)
          ∨ (s.filler.step = .clear ∧ s.pins.chest = false ∧ t = h.withdrawLane.goIdle)
          ∨ (s.filler.step.inFill = false ∧ (s.filler.step ≠ .clear ∨ s.pins.chest = true) ∧ t = h)) →
        s.raiseHalting c
          = ({ u with books := u.books.removeEntries u.filling .apply claims } : State).withdrawLane))
  ∧ (∀ (s t : State), t = { s with books :=
      ({ s.books with station := .online, onlineWait := false } : Books).raiseNotice .online none none none } →
      (s.weigh.lossFound = false → s.saturationDue = false → s.goOnline = t)
      ∧ (s.weigh.lossFound = false → s.saturationDue = true →
          s.goOnline = ({ t with weigh := { t.weigh with saturationRaised := true } } : State).raiseHalting
            .scaleSaturated)
      ∧ (s.weigh.lossFound = true → s.saturationDue = false → s.goOnline = t.raiseHalting .sampleLoss)
      ∧ (s.weigh.lossFound = true → s.saturationDue = true → ∀ u, u = t.raiseHalting .sampleLoss →
          s.goOnline = { u with weigh := { u.weigh with saturationRaised := true },
                                books := u.books.raiseFault .scaleSaturated }))
  ∧ (∀ s : State, s.saturationDue = true ↔
      s.weigh.saturationRaised = false ∧ ∃ t, s.weigh.saturatedSince = some t ∧ 1000 ≤ (s.books.time - t).toNat)

/-! ### Laws of the whole machine -/

/-- The laws hold of the machine right after reset. -/
def Obligations.ResetMeetsTheLaws : Prop :=
  State.reset.gatesSafe ∧ State.reset.books.lawful ∧ State.reset.books.invoiceLaw ∧ State.reset.inflightLaw
  ∧ State.reset.storeLaw ∧ State.reset.reservationLaw ∧ State.reset.books.serialLaw

/-- Every frame in range, sent by any station, is read back by a receiver as that frame from that sender: no sample,
character or field of the frame layouts is lost, and the check agrees. -/
def Obligations.FramesReadBack : Prop :=
  (∀ (has : Nat → Bool) (sender : Nat) (f : Frame), f.inRange sender = true →
    (has f.invoice = true ∨ f.kind = 6 ∨ f.kind = 9) →
    judge has (frameChars sender f) = .taken sender f)
  ∧ (∀ (sender : Nat) (f : Frame), assembled (frameSamples sender f) = frameChars sender f)

/-- Every step keeps the lane safe: severe faults stand only in HALT and OFFLINE, a fill runs only in ONLINE, and a gate is
open only in FEED(k) and TOPUP with HOLD inactive; so no gate is open under a severe fault or HOLD. -/
def Obligations.GatesStaySafe : Prop :=
  (∀ s t : State, s.gatesSafe → step s = .next t → t.gatesSafe)
  ∧ (∀ s : State, s.gatesSafe → s.filler.gate.isOpen = true →
      s.books.anySevere = false ∧ s.pins.hold = false ∧ s.books.station = .online
        ∧ (s.filler.step = .topup ∨ ∃ k, s.filler.step = .feed k))

/-- Every step keeps the capacities and orders of the tables: the Transmit Queue, the notice queue, the fault list, the
invoice table with its free lists, every in-flight value, the chest store with its reserved slot and the reservation numbers,
and the serials, no free one above the high mark or the ceiling or on a chest record. -/
def Obligations.TablesStayLawful : Prop :=
  (∀ s t : State, s.books.lawful → step s = .next t → t.books.lawful)
  ∧ (∀ s t : State, s.books.invoiceLaw → step s = .next t → t.books.invoiceLaw)
  ∧ (∀ s t : State, s.inflightLaw → step s = .next t → t.inflightLaw)
  ∧ (∀ s t : State, s.storeLaw → step s = .next t → t.storeLaw)
  ∧ (∀ s t : State, s.reservationLaw → step s = .next t → t.reservationLaw)
  ∧ (∀ s t : State, s.books.invoiceLaw → s.books.serialLaw → step s = .next t → t.books.serialLaw)
end

