-- ==== Sys2Proof/Laws/Lists.lean ====
section
/-! SUPPORT. What the list operations of the tables do: insertion in ascending order, and entries put under a key. -/

namespace Sys2Proof.Machine

/-! ### insertAsc -/

theorem mem_insertAsc {n m : Nat} {l : List Nat} : m ∈ insertAsc n l ↔ m = n ∨ m ∈ l := by
  induction l with
  | nil => simp [insertAsc]
  | cons a l ih =>
    unfold insertAsc
    split
    · simp
    · split
      · next h => subst h; simp
      · simp only [List.mem_cons, ih]; tauto

theorem insertAsc_length_le (n : Nat) (l : List Nat) : (insertAsc n l).length ≤ l.length + 1 := by
  induction l with
  | nil => simp [insertAsc]
  | cons a l ih =>
    unfold insertAsc
    split
    · simp
    · split
      · simp
      · simpa using ih

theorem insertAsc_pairwise {n : Nat} {l : List Nat} (h : l.Pairwise (· < ·)) : (insertAsc n l).Pairwise (· < ·) := by
  induction l with
  | nil => simp [insertAsc]
  | cons a l ih =>
    rw [List.pairwise_cons] at h
    unfold insertAsc
    split
    · next hn =>
      refine List.pairwise_cons.2 ⟨fun x hx => ?_, List.pairwise_cons.2 h⟩
      rcases List.mem_cons.1 hx with rfl | hx
      · exact hn
      · exact hn.trans (h.1 x hx)
    · split
      · exact List.pairwise_cons.2 h
      · next hn hne =>
        refine List.pairwise_cons.2 ⟨fun x hx => ?_, ih h.2⟩
        rcases mem_insertAsc.1 hx with rfl | hx
        · omega
        · exact h.1 x hx

/-! ### putBy -/

variable {α : Type} {key : α → Nat} {x : α} {l : List α}

theorem mem_putBy {y : α} (h : y ∈ putBy key x l) : y = x ∨ y ∈ l := by
  induction l with
  | nil => simpa [putBy] using h
  | cons a l ih =>
    unfold putBy at h
    split at h
    · simpa using h
    · split at h
      · rcases List.mem_cons.1 h with h | h
        · exact .inl h
        · exact .inr (List.mem_cons_of_mem _ h)
      · rcases List.mem_cons.1 h with h | h
        · exact .inr (by simp [h])
        · rcases ih h with h | h
          · exact .inl h
          · exact .inr (List.mem_cons_of_mem _ h)

theorem self_mem_putBy : x ∈ putBy key x l := by
  induction l with
  | nil => simp [putBy]
  | cons a l ih =>
    unfold putBy
    split
    · simp
    · split
      · simp
      · exact List.mem_cons_of_mem _ ih

theorem putBy_length_le (key : α → Nat) (x : α) (l : List α) : (putBy key x l).length ≤ l.length + 1 := by
  induction l with
  | nil => simp [putBy]
  | cons a l ih =>
    unfold putBy
    split
    · simp
    · split
      · simp
      · simpa using ih

theorem putBy_pairwise (h : l.Pairwise (fun a b => key a < key b)) :
    (putBy key x l).Pairwise (fun a b => key a < key b) := by
  induction l with
  | nil => simp [putBy]
  | cons a l ih =>
    rw [List.pairwise_cons] at h
    unfold putBy
    split
    · next hn =>
      refine List.pairwise_cons.2 ⟨fun y hy => ?_, List.pairwise_cons.2 h⟩
      rcases List.mem_cons.1 hy with rfl | hy
      · exact hn
      · exact hn.trans (h.1 y hy)
    · split
      · next hn he => exact List.pairwise_cons.2 ⟨fun y hy => he ▸ h.1 y hy, h.2⟩
      · next hn hne =>
        refine List.pairwise_cons.2 ⟨fun y hy => ?_, ih h.2⟩
        rcases mem_putBy hy with rfl | hy
        · omega
        · exact h.1 y hy

/-- The members of a list ascending by key, once an entry has been put in it: that entry, and those of other keys. -/
theorem mem_putBy_iff (h : l.Pairwise (fun a b => key a < key b)) {y : α} :
    y ∈ putBy key x l ↔ y = x ∨ (y ∈ l ∧ key y ≠ key x) := by
  induction l with
  | nil => simp [putBy]
  | cons a l ih =>
    rw [List.pairwise_cons] at h
    unfold putBy
    split
    · next hn =>
      simp only [List.mem_cons]
      refine ⟨?_, by rintro (e | ⟨e | e, -⟩) <;> simp [e]⟩
      rintro (e | e | e)
      · exact .inl e
      · exact .inr ⟨.inl e, by subst e; omega⟩
      · exact .inr ⟨.inr e, by have := h.1 y e; omega⟩
    · split
      · next hn he =>
        simp only [List.mem_cons]
        constructor
        · rintro (e | e)
          · exact .inl e
          · exact .inr ⟨.inr e, by have := h.1 y e; omega⟩
        · rintro (e | ⟨e | e, hne⟩)
          · exact .inl e
          · exact absurd (e ▸ he.symm) hne
          · exact .inr e
      · next hn hne =>
        simp only [List.mem_cons, ih h.2]
        constructor
        · rintro (e | e | ⟨e, k⟩)
          · exact .inr ⟨.inl e, by subst e; omega⟩
          · exact .inl e
          · exact .inr ⟨.inr e, k⟩
        · rintro (e | ⟨e | e, k⟩) <;> simp [*]

/-- A search that only entries of the key put can answer finds the entry put. -/
theorem find?_putBy_self {p : α → Bool} (h : ∀ y ∈ l, p y = true → key y = key x) (hx : p x = true) :
    (putBy key x l).find? p = some x := by
  induction l with
  | nil => simp [putBy, hx]
  | cons a l ih =>
    unfold putBy
    split
    · simp [hx]
    · split
      · simp [hx]
      · next hn hne =>
        have ha : p a = false := Bool.eq_false_iff.2 fun e => hne (h a (by simp) e).symm
        rw [List.find?_cons, ha]
        exact ih fun y hy => h y (List.mem_cons_of_mem _ hy)

/-- A search that no entry of the key put can answer finds what it found before. -/
theorem find?_putBy_other {p : α → Bool} (h : ∀ y ∈ l, key y = key x → p y = false) (hx : p x = false) :
    (putBy key x l).find? p = l.find? p := by
  induction l with
  | nil => simp [putBy, hx]
  | cons a l ih =>
    unfold putBy
    split
    · simp [hx]
    · split
      · next hn he => simp [hx, h a (by simp) he.symm]
      · rw [List.find?_cons, List.find?_cons, ih fun y hy => h y (List.mem_cons_of_mem _ hy)]

/-- Whether some entry has a property that entries of one key share. -/
theorem any_putBy {p : α → Bool} (h : ∀ y ∈ l, key y = key x → p y = p x) :
    (putBy key x l).any p = (p x || l.any p) := by
  induction l with
  | nil => simp [putBy]
  | cons a l ih =>
    unfold putBy
    split
    · simp
    · split
      · next he =>
        have := h a (by simp) he.symm
        simp [this]
      · rw [List.any_cons, ih (fun y hy => h y (List.mem_cons_of_mem _ hy)), List.any_cons]
        cases p a <;> cases p x <;> simp

end Sys2Proof.Machine
end

