-- ==== Sys2Proof/Laws/Books.lean ====
section
/-! SUPPORT. What every operation of the tables keeps: station time, the straps, the station state and the settings, which
severe faults stand, and the laws of the queues, the fault list and the free lists. -/

namespace Sys2Proof.Machine

/-- What an operation of the tables never changes, and the laws it keeps. -/
structure Books.Kept (b b' : Books) : Prop where
  time : b'.time = b.time
  straps : b'.straps = b.straps
  station : b'.station = b.station
  onlineWait : b'.onlineWait = b.onlineWait
  settings : b'.settings = b.settings
  feeders : b'.feeders = b.feeders
  severe : b'.anySevere = b.anySevere
  halting : b'.anyHalting = b.anyHalting
  offline : b'.faults.any (fun e => e.code.offline) = b.faults.any (fun e => e.code.offline)
  lawful : b.lawful → b'.lawful
  free : b.invoiceLaw → b'.invoiceLaw

namespace Books

theorem Kept.refl (b : Books) : b.Kept b :=
  ⟨rfl, rfl, rfl, rfl, rfl, rfl, rfl, rfl, rfl, id, id⟩

theorem Kept.trans {a b c : Books} (h : a.Kept b) (k : b.Kept c) : a.Kept c :=
  ⟨k.time.trans h.time, k.straps.trans h.straps, k.station.trans h.station, k.onlineWait.trans h.onlineWait,
    k.settings.trans h.settings, k.feeders.trans h.feeders, k.severe.trans h.severe, k.halting.trans h.halting,
    k.offline.trans h.offline, fun l => k.lawful (h.lawful l), fun l => k.free (h.free l)⟩

/-- An operation on the bins, the chest store, the rounds, the sheets or the repeat memory alone. -/
theorem Kept.of_stores {b : Books} (repeats : Vector (Option Repeat) 31) (bins : Vector Bin 64) (chests : List Chest)
    (reservation : Option Nat) (counter : Nat) (rounds : List Round) (sheets : List LotSheet) (released : List Nat) :
    b.Kept { b with repeats := repeats, bins := bins, chests := chests, reservation := reservation,
                    reservationCounter := counter, rounds := rounds, sheets := sheets, released := released } :=
  ⟨rfl, rfl, rfl, rfl, rfl, rfl, rfl, rfl, rfl, id, id⟩

theorem Kept.ite {c : Prop} [Decidable c] {a b b' : Books} (h : a.Kept b) (k : a.Kept b') :
    a.Kept (if c then b else b') := by split <;> assumption

/-! ### Faults and notices -/

theorem num_injective {c d : FaultCode} (h : c.num = d.num) : c = d := by
  cases c <;> cases d <;> first | rfl | cases h

/-- Raising a fault that is not severe. -/
theorem kept_raiseFault (b : Books) {c : FaultCode} (hc : c.severe = false) : b.Kept (b.raiseFault c) := by
  have code : (raisedEntry c b.time (b.fault? c)).code = c := by
    unfold raisedEntry fault?
    split
    · rfl
    · next e he => simpa using List.find?_some he
  have any : ∀ p : FaultCode → Bool, p c = false →
      (b.raiseFault c).faults.any (fun e => p e.code) = b.faults.any (fun e => p e.code) := by
    intro p hp
    unfold raiseFault
    simp only
    rw [any_putBy]
    · simp [code, hp]
    · intro y _ h
      rw [code] at h ⊢
      rw [num_injective h]
  refine ⟨rfl, rfl, rfl, rfl, rfl, rfl, any _ hc, any _ ?_, any _ ?_, ?_, id⟩
  · cases c <;> first | rfl | cases hc
  · cases c <;> first | rfl | cases hc
  · rintro ⟨h₁, h₂, h₃⟩
    exact ⟨h₁, h₂, putBy_pairwise (key := fun e : FaultEntry => e.code.num) h₃⟩

theorem kept_clearCause (b : Books) (c : FaultCode) : b.Kept (b.clearCause c) := by
  have code : ∀ e : FaultEntry, (if e.code = c then { e with cause := .cleared } else e).code = e.code := by
    intro e; split <;> rfl
  refine ⟨rfl, rfl, rfl, rfl, rfl, rfl, ?_, ?_, ?_, ?_, id⟩
  · simp [anySevere, clearCause, List.any_map, Function.comp_def, code]
  · simp [anyHalting, clearCause, List.any_map, Function.comp_def, code]
  · simp [clearCause, List.any_map, Function.comp_def, code]
  · rintro ⟨h₁, h₂, h₃⟩
    refine ⟨h₁, h₂, ?_⟩
    unfold faultLaw at h₃ ⊢
    unfold clearCause
    rw [List.pairwise_map]
    simpa only [code] using h₃

theorem kept_raiseNotice (b : Books) (k : NoticeKind) (i s v : Option Nat) : b.Kept (b.raiseNotice k i s v) := by
  unfold raiseNotice
  split
  · next h =>
    refine ⟨rfl, rfl, rfl, rfl, rfl, rfl, rfl, rfl, rfl, ?_, id⟩
    rintro ⟨h₁, _, h₃⟩
    refine ⟨h₁, ?_, h₃⟩
    simpa [noticeLaw] using h
  · exact b.kept_raiseFault rfl

/-! ### Invoice records -/

/-- A change of one record that keeps its number changes what that number finds, and nothing that another finds. -/
theorem invoice?_modifyInvoice (b : Books) (n k : Nat) {f : Invoice → Invoice} (number : ∀ r, (f r).number = r.number) :
    (b.modifyInvoice n f).invoice? k = if k = n then (b.invoice? k).map f else b.invoice? k := by
  have same : ((fun r => decide (r.number = k)) ∘ fun r : Invoice => if r.number = n then f r else r)
      = fun r => decide (r.number = k) := by
    funext r; simp only [Function.comp]; split <;> simp [number]
  simp only [invoice?, modifyInvoice, List.find?_map, same]
  cases found : b.invoices.find? (fun r => decide (r.number = k)) with
  | none => simp
  | some r =>
    have : r.number = k := by simpa using List.find?_some found
    by_cases h : k = n <;> simp [this, h]

/-- A record changed by a function that keeps its number and its free list's law. -/
theorem kept_modifyInvoice (b : Books) (n : Nat) {f : Invoice → Invoice} (number : ∀ r, (f r).number = r.number)
    (free : ∀ r, r.freeLaw → (f r).freeLaw) : b.Kept (b.modifyInvoice n f) := by
  have num : ∀ r : Invoice, (if r.number = n then f r else r).number = r.number := by
    intro r; split
    · exact number r
    · rfl
  refine ⟨rfl, rfl, rfl, rfl, rfl, rfl, rfl, rfl, rfl, id, ?_⟩
  rintro ⟨h₁, h₂, h₃⟩
  refine ⟨by simpa [modifyInvoice] using h₁, ?_, ?_⟩
  · unfold modifyInvoice
    rw [List.pairwise_map]
    simpa only [num] using h₂
  · intro r hr
    simp only [modifyInvoice, List.mem_map] at hr
    obtain ⟨q, hq, rfl⟩ := hr
    split
    · exact free q (h₃ q hq)
    · exact h₃ q hq

/-- A record changed by a function that keeps its number and its free list. -/
theorem kept_modify (b : Books) (n : Nat) {f : Invoice → Invoice} (number : ∀ r, (f r).number = r.number)
    (free : ∀ r, (f r).free = r.free) : b.Kept (b.modifyInvoice n f) :=
  b.kept_modifyInvoice n number (fun r h => by unfold Invoice.freeLaw at *; rwa [free])

end Books

theorem Invoice.freeLaw_filter {r : Invoice} (h : r.freeLaw) (p : Nat → Bool) :
    (r.free.filter p).length ≤ 16 ∧ (r.free.filter p).Pairwise (· < ·) :=
  ⟨(List.length_filter_le _ _).trans h.1, h.2.filter p⟩

theorem Invoice.freeLaw_nil {r : Invoice} (h : r.free = []) : r.freeLaw := by simp [freeLaw, h]

theorem Invoice.freeLaw_cons {r : Invoice} {x : Nat} (h : r.free = [x]) : r.freeLaw := by simp [freeLaw, h]

theorem Invoice.surrender_number (r : Invoice) (k : Bool) : (r.surrender k).number = r.number := by
  unfold surrender
  split
  · rfl
  · split <;> rfl

theorem Invoice.surrender_freeLaw {r : Invoice} (k : Bool) (h : r.freeLaw) : (r.surrender k).freeLaw := by
  unfold surrender
  split
  · exact h
  · split
    · exact freeLaw_cons rfl
    · exact freeLaw_nil rfl

theorem Invoice.giveUp_freeLaw {r : Invoice} (first count : Nat) (h : r.freeLaw) : (r.giveUp first count).freeLaw :=
  freeLaw_filter h _

theorem Invoice.yield_number (r : Invoice) (x : Nat) : (r.yield x).number = r.number := by
  unfold yield; split <;> rfl

theorem Invoice.yield_free (r : Invoice) (x : Nat) : (r.yield x).free = r.free := by
  unfold yield; split <;> rfl

theorem Books.takeClaimed_number (b : Books) (fill : Option Nat) (r : Invoice) (x : Nat) :
    (b.takeClaimed fill r x).number = r.number := by
  unfold takeClaimed
  split
  · split <;> (try split) <;> rfl
  · rfl

theorem Books.takeClaimed_freeLaw (b : Books) (fill : Option Nat) {r : Invoice} (x : Nat) (h : r.freeLaw) :
    (b.takeClaimed fill r x).freeLaw := by
  unfold takeClaimed
  split
  · split
    iterate 3
      split
      · next hl => exact ⟨(insertAsc_length_le _ _).trans (by omega), insertAsc_pairwise h.2⟩
      · exact h
    · split
      · exact Invoice.freeLaw_cons rfl
      · exact h
    · exact h
  · exact h

theorem Books.takeClaimed_foldl (b : Books) (fill : Option Nat) (l : List Nat) (r : Invoice) :
    (l.foldl (b.takeClaimed fill) r).number = r.number ∧ (r.freeLaw → (l.foldl (b.takeClaimed fill) r).freeLaw) := by
  induction l generalizing r with
  | nil => exact ⟨rfl, id⟩
  | cons x l ih =>
    have := ih (b.takeClaimed fill r x)
    exact ⟨this.1.trans (b.takeClaimed_number fill r x), fun h => this.2 (b.takeClaimed_freeLaw fill x h)⟩

namespace Books

theorem kept_applyOwnClaim (b : Books) (fill : Option Nat) (n first count : Nat) :
    b.Kept (b.applyOwnClaim fill n first count) :=
  b.kept_modifyInvoice n (fun _ => (b.takeClaimed_foldl fill _ _).1.trans rfl)
    (fun _ h => (b.takeClaimed_foldl fill _ _).2 h)

theorem kept_claimSent (b : Books) (n first count : Nat) : b.Kept (b.claimSent n first count) :=
  b.kept_modify n (fun _ => by rfl) (fun _ => by rfl)

theorem kept_surrenderKept (b : Books) (n : Nat) : b.Kept (b.surrenderKept n) :=
  b.kept_modifyInvoice n (fun _ => by split <;> rfl)
    (fun _ h => by split; exacts [Invoice.freeLaw_nil rfl, h])

/-! ### Bins -/

theorem kept_setBin (b : Books) (n : Nat) (r : Bin) : b.Kept (b.setBin n r) := by
  unfold setBin
  split
  · exact Kept.refl b
  · exact Kept.of_stores _ _ _ _ _ _ _ _

theorem kept_fillBin (b : Books) (n x q : Nat) : b.Kept (b.fillBin n x q) := by
  unfold fillBin
  exact Kept.ite ((b.kept_setBin _ _).trans (kept_raiseNotice _ _ _ _ _)) (b.kept_setBin _ _)

theorem kept_emptyBin (b : Books) (n x : Nat) : b.Kept (b.emptyBin n x) := b.kept_setBin _ _

theorem kept_binAction (b : Books) (n a x q : Nat) : b.Kept (b.binAction n a x q) := by
  unfold binAction
  split
  · exact b.kept_fillBin _ _ _
  · exact b.kept_emptyBin _ _
  · exact b.kept_setBin _ _
  · exact Kept.refl b

theorem kept_lowerBin (b : Books) (n d : Nat) : b.Kept (b.lowerBin n d) := by
  unfold lowerBin
  exact Kept.ite ((b.kept_setBin _ _).trans (kept_raiseFault _ rfl)) (b.kept_setBin _ _)

theorem kept_enterLow (b : Books) (n : Nat) : b.Kept (b.enterLow n) := by
  unfold enterLow
  exact Kept.ite ((b.kept_setBin _ _).trans (kept_raiseNotice _ _ _ _ _)) (Kept.refl b)

theorem kept_draw (b : Books) (d : Draw) : b.Kept (b.draw d) := by
  unfold draw
  split
  · exact Kept.refl b
  · split
    · exact Kept.refl b
    · exact Kept.refl b
    · exact (b.kept_lowerBin _ _).trans (kept_enterLow _ _)
    · exact b.kept_lowerBin _ _
    · exact b.kept_lowerBin _ _

theorem kept_foldl {α : Type} (f : Books → α → Books) (h : ∀ (b : Books) (x : α), b.Kept (f b x)) (l : List α) (b : Books) :
    b.Kept (l.foldl f b) := by
  induction l generalizing b with
  | nil => exact Kept.refl b
  | cons x l ih => exact (h b x).trans (ih _)

theorem kept_drawAll (b : Books) (ds : List Draw) : b.Kept (b.drawAll ds) := kept_foldl draw kept_draw ds b

/-! ### The Transmit Queue -/

/-- Entries replaced by as many, or fewer, with no more of them of a kind other than TALLY. -/
theorem kept_tx (b : Books) (tx : List TxEntry) (h₁ : tx.length ≤ b.tx.length)
    (h₂ : (tx.filter (fun e => !e.frame.isTally)).length ≤ (b.tx.filter (fun e => !e.frame.isTally)).length) :
    b.Kept { b with tx := tx } :=
  ⟨rfl, rfl, rfl, rfl, rfl, rfl, rfl, rfl, rfl,
    fun h => ⟨⟨h₁.trans h.1.1, h₂.trans h.1.2⟩, h.2⟩, id⟩

theorem tally_filter_length (l : List TxEntry) (p : TxEntry → Bool) :
    ((l.filter p).filter (fun e => !e.frame.isTally)).length ≤ (l.filter (fun e => !e.frame.isTally)).length :=
  (List.filter_sublist.filter _).length_le

theorem tally_map_length (l : List TxEntry) (f : TxEntry → TxEntry)
    (h : ∀ e ∈ l, (f e).frame.isTally = e.frame.isTally) :
    ((l.map f).filter (fun e => !e.frame.isTally)).length = (l.filter (fun e => !e.frame.isTally)).length := by
  rw [List.filter_map, List.length_map]
  congr 1
  exact List.filter_congr (fun e he => by simp [h e he])

theorem kept_filterTx (b : Books) (p : TxEntry → Bool) : b.Kept { b with tx := b.tx.filter p } :=
  b.kept_tx _ (List.length_filter_le _ _) (tally_filter_length _ _)

theorem kept_mapTx (b : Books) (f : TxEntry → TxEntry) (h : ∀ e ∈ b.tx, (f e).frame.isTally = e.frame.isTally) :
    b.Kept { b with tx := b.tx.map f } :=
  b.kept_tx _ (by simp) (tally_map_length _ _ h).le

theorem kept_applyRemoved (fill : Option Nat) (b : Books) (e : TxEntry) : b.Kept (b.applyRemoved fill e) := by
  unfold applyRemoved
  split
  · exact Kept.ite (b.kept_applyOwnClaim _ _ _ _) (Kept.refl b)
  all_goals exact Kept.refl b

theorem kept_removeEntries (b : Books) (fill : Option Nat) (how : Removal) (p : TxEntry → Bool) :
    b.Kept (b.removeEntries fill how p) := by
  unfold removeEntries
  have h : b.Kept { b with tx := ((b.tx.filter (fun e => !(p e && !e.underWay))).map
      (fun e => if p e && (e.removal = .none || how = .discard) then { e with removal := how } else e)) } :=
    (b.kept_filterTx _).trans (kept_mapTx _ _ (fun e _ => by split <;> rfl))
  exact Kept.ite (h.trans (kept_foldl _ (kept_applyRemoved fill) _ _)) h

theorem kept_enterClosing (b : Books) (fill : Option Nat) (n : Nat) (role : CloseRole) :
    b.Kept (b.enterClosing fill n role) := by
  unfold enterClosing
  refine Kept.trans ?_ (kept_modifyInvoice _ n (fun r => r.surrender_number _) (fun _ h => Invoice.surrender_freeLaw _ h))
  refine Kept.trans ?_ (kept_removeEntries _ _ _ _)
  exact b.kept_modify n (fun _ => by rfl) (fun _ => by rfl)

theorem kept_enterClosed (b : Books) (fill : Option Nat) (n : Nat) (role : CloseRole) :
    b.Kept (b.enterClosed fill n role) := by
  unfold enterClosed
  refine Kept.trans ?_ (kept_modifyInvoice _ n (fun _ => by rfl) (fun _ _ => Invoice.freeLaw_nil (by rfl)))
  refine Kept.trans ?_ (kept_removeEntries _ _ _ _)
  refine Kept.trans ?_ (kept_modify _ n (fun _ => by rfl) (fun _ => by rfl))
  exact Kept.ite (b.kept_enterClosing fill n .peer) (Kept.refl b)

theorem kept_rounds (b : Books) (l : List Round) : b.Kept { b with rounds := l } := Kept.of_stores _ _ _ _ _ _ _ _

theorem kept_modifyRound (b : Books) (n : Nat) (f : Round → Round) : b.Kept (b.modifyRound n f) := b.kept_rounds _

theorem kept_putRound (b : Books) (d : Round) : b.Kept (b.putRound d) := b.kept_rounds _

theorem kept_dropRound (b : Books) (n : Nat) : b.Kept (b.dropRound n) := b.kept_rounds _

theorem kept_callLeaves (b : Books) (fill : Option Nat) (n round : Nat) : b.Kept (b.callLeaves fill n round) := by
  unfold callLeaves
  split
  · exact Kept.refl b
  · split
    · exact (b.kept_enterClosing _ _ _).trans (kept_putRound _ _)
    · exact Kept.ite (b.kept_modifyRound _ _) (Kept.refl b)

theorem kept_censusLeaves (b : Books) (n : Nat) : b.Kept (b.censusLeaves n) :=
  b.kept_modify n (fun r => by split <;> rfl) (fun r => by split <;> rfl)

theorem kept_applyOwn (b : Books) (fill : Option Nat) (f : Frame) : b.Kept (b.applyOwn fill f) := by
  unfold applyOwn
  split
  · exact b.kept_applyOwnClaim _ _ _ _
  · exact b.kept_drawAll _
  · exact b.kept_binAction _ _ _ _
  · exact b.kept_censusLeaves _
  · exact b.kept_callLeaves _ _ _
  all_goals exact Kept.refl b

theorem kept_dropFrame (b : Books) (fill : Option Nat) (f : Frame) : b.Kept (b.dropFrame fill f) := by
  have h : b.Kept (b.raiseFault .txQueueFull) := b.kept_raiseFault rfl
  unfold dropFrame
  split
  · exact h
  all_goals exact h.trans (kept_applyOwn _ _ _)

/-- A frame joins within the capacity of R23, or is dropped. -/
theorem kept_queueFrame (b : Books) (fill : Option Nat) (f : Frame) : b.Kept (b.queueFrame fill f) := by
  unfold queueFrame
  split
  · next h =>
    refine ⟨rfl, rfl, rfl, rfl, rfl, rfl, rfl, rfl, rfl, fun l => ⟨?_, l.2⟩, id⟩
    simp only [hasRoom, Bool.and_eq_true, decide_eq_true_eq, Bool.or_eq_true] at h
    refine ⟨by simpa using h.1, ?_⟩
    simp only [List.filter_append, List.length_append]
    rcases h.2 with hf | hf
    · simpa [hf] using l.1.2
    · have : (([⟨f, 0, false, .none⟩] : List TxEntry).filter (fun e => !e.frame.isTally)).length ≤ 1 :=
        List.length_filter_le _ _
      omega
  · exact b.kept_dropFrame _ _

theorem mapFirst_length {α : Type} (p : α → Bool) (f : α → α) (l : List α) : (mapFirst p f l).length = l.length := by
  induction l with
  | nil => rfl
  | cons x l ih => unfold mapFirst; split <;> simp [ih]

theorem mapFirst_filter_length {α : Type} (p q : α → Bool) (f : α → α) (h : ∀ x, q (f x) = q x) (l : List α) :
    ((mapFirst p f l).filter q).length = (l.filter q).length := by
  induction l with
  | nil => rfl
  | cons x l ih =>
    unfold mapFirst
    split
    · simp only [List.filter_cons, h]; split <;> simp
    · simp only [List.filter_cons]; split <;> simp [ih]

theorem kept_beginAttempt (b : Books) : b.Kept b.beginAttempt :=
  b.kept_tx _ (mapFirst_length _ _ _).le (mapFirst_filter_length _ _ _ (fun _ => by rfl) _).le

theorem kept_dropSending (b : Books) : b.Kept b.dropSending := b.kept_filterTx _

theorem kept_leaveRemoved (b : Books) (fill : Option Nat) (e : TxEntry) : b.Kept (b.leaveRemoved fill e) := by
  unfold leaveRemoved
  exact Kept.ite b.kept_dropSending (b.kept_dropSending.trans (kept_applyRemoved _ _ _))

theorem kept_attemptLost (b : Books) (fill : Option Nat) : b.Kept (b.attemptLost fill) := by
  unfold attemptLost
  split
  · exact Kept.refl b
  · exact Kept.ite (b.kept_mapTx _ (fun e _ => by split <;> rfl)) (b.kept_leaveRemoved _ _)

theorem kept_noteFirstAttempt (b : Books) (e : TxEntry) : b.Kept (b.noteFirstAttempt e) := by
  unfold noteFirstAttempt
  split
  · exact Kept.ite (b.kept_claimSent _ _ _) (Kept.refl b)
  all_goals exact Kept.refl b

theorem kept_attemptEnds (b : Books) (fill : Option Nat) (ack nak : Bool) : b.Kept (b.attemptEnds fill ack nak) := by
  unfold attemptEnds
  split
  · exact Kept.refl b
  · next e _ =>
    have h := b.kept_noteFirstAttempt e
    refine Kept.ite (h.trans (kept_leaveRemoved _ _ _)) ?_
    split
    · exact h.trans (kept_mapTx _ _ (fun e _ => by split <;> rfl))
    · exact (h.trans (kept_dropSending _)).trans (kept_applyOwn _ _ _)
    · exact ((h.trans (kept_dropSending _)).trans (kept_raiseFault _ rfl)).trans (kept_applyOwn _ _ _)
    · exact ((h.trans (kept_dropSending _)).trans (kept_raiseNotice _ _ _ _ _)).trans (kept_applyOwn _ _ _)

theorem kept_removeClaims (b : Books) (fill : Option Nat) : b.Kept (b.removeClaims fill) := b.kept_removeEntries _ _ _

theorem kept_rewriteClaim (b : Books) (n : Nat) : b.Kept (b.rewriteClaim n) := by
  unfold rewriteClaim
  split
  · exact Kept.refl b
  · refine Kept.ite (Kept.ite ((b.kept_removeEntries _ _ _).trans (kept_raiseNotice _ _ _ _ _)) ?_) (Kept.refl b)
    refine b.kept_mapTx _ (fun e _ => ?_)
    split
    · next h =>
      simp only [TxEntry.neverSent, TxEntry.isClaimOf, Bool.and_eq_true, decide_eq_true_eq] at h
      simp only [Frame.isTally, h.1.1.1]
      rfl
    · rfl

theorem kept_raiseHigh (b : Books) (n v : Nat) : b.Kept (b.raiseHigh n v) := by
  unfold raiseHigh
  split
  · exact Kept.refl b
  · exact Kept.ite ((b.kept_modify n (fun _ => by rfl) (fun _ => by rfl)).trans (kept_rewriteClaim _ _)) (Kept.refl b)

theorem kept_claimCheck (b : Books) (n : Nat) : b.Kept (b.claimCheck n) := by
  unfold claimCheck
  split
  · exact Kept.refl b
  · exact Kept.ite (Kept.refl b) (Kept.ite (b.kept_queueFrame _ _) (b.kept_raiseNotice _ _ _ _))

theorem kept_claimCheckIfEmptied (b : Books) (fill : Option Nat) (n : Nat) (l : List Nat) :
    b.Kept (b.claimCheckIfEmptied fill n l) := Kept.ite (b.kept_claimCheck n) (Kept.refl b)

theorem kept_setRepeat (b : Books) (k : Nat) (r : Option Repeat) : b.Kept (b.setRepeat k r) := by
  unfold setRepeat
  exact Kept.ite (Kept.refl b) (Kept.of_stores _ _ _ _ _ _ _ _)

/-! ### The Invoice Table -/

theorem kept_evalFull (b : Books) (n : Nat) : b.Kept (b.evalFull n) := by
  unfold evalFull
  split
  · exact Kept.refl b
  · refine Kept.ite ?_ (Kept.refl b)
    have h : ∀ v : Bool, b.Kept (b.modifyInvoice n (fun r => { r with full := v })) :=
      fun v => b.kept_modify n (fun _ => by rfl) (fun _ => by rfl)
    exact Kept.ite ((h _).trans (kept_raiseNotice _ _ _ _ _)) (h _)

theorem kept_startCensus (b : Books) (n : Nat) : b.Kept (b.startCensus n) := by
  unfold startCensus
  split
  · exact Kept.refl b
  · exact (b.kept_modify n (fun _ => by rfl) (fun _ => by rfl)).trans (kept_queueFrame _ _ _)

theorem kept_staleRecord (b : Books) (n : Nat) : b.Kept (b.staleRecord n) := by
  unfold staleRecord
  split
  · exact Kept.refl b
  · split
    · exact (b.kept_modify n (fun _ => by rfl) (fun _ => by rfl)).trans (kept_startCensus _ _)
    · exact b.kept_modify n (fun _ => by rfl) (fun _ => by rfl)
    · exact b.kept_modify n (fun _ => by rfl) (fun _ => by rfl)
    · exact b.kept_modify n (fun _ => by rfl) (fun _ => by rfl)
    · exact b.kept_modify n (fun _ => by rfl) (fun _ => by rfl)
    all_goals exact Kept.refl b

theorem kept_staleRequest (b : Books) : b.Kept b.staleRequest := kept_foldl _ kept_staleRecord _ _

theorem kept_joinParticipants (b : Books) (n k : Nat) : b.Kept (b.joinParticipants n k) :=
  b.kept_modify n (fun _ => by rfl) (fun _ => by rfl)

theorem kept_lowerCeiling (b : Books) (fill : Option Nat) (n c : Nat) : b.Kept (b.lowerCeiling fill n c) := by
  unfold lowerCeiling
  refine Kept.trans ?_ (kept_claimCheckIfEmptied _ _ _ _)
  refine Kept.trans ?_ (kept_evalFull _ _)
  refine Kept.trans ?_ (kept_rewriteClaim _ _)
  exact b.kept_modifyInvoice n (fun _ => by rfl) (fun _ h => Invoice.freeLaw_filter h _)

theorem kept_comparePlan (b : Books) (fill : Option Nat) (n v : Nat) : b.Kept (b.comparePlan fill n v) := by
  unfold comparePlan
  split
  · exact Kept.refl b
  · have h : b.Kept (b.raiseFault .planMismatch) := b.kept_raiseFault rfl
    exact Kept.ite (Kept.ite (h.trans (kept_lowerCeiling _ _ _ _)) h) (Kept.refl b)

theorem kept_queueTally (b : Books) (n a i : Nat) : b.Kept (b.queueTally n a i) := by
  unfold queueTally
  split
  · exact Kept.refl b
  · exact b.kept_queueFrame _ _

theorem kept_noteTally (b : Books) (n k p : Nat) : b.Kept (b.noteTally n k p) :=
  b.kept_modify n (fun r => by split <;> rfl) (fun r => by split <;> rfl)

theorem kept_endCensusWindow (b : Books) (n : Nat) : b.Kept (b.endCensusWindow n) := by
  unfold endCensusWindow
  split
  · exact Kept.refl b
  · exact Kept.ite ((b.kept_modify n (fun _ => by rfl) (fun _ => by rfl)).trans (kept_startCensus _ _))
      ((b.kept_modify n (fun _ => by rfl) (fun _ => by rfl)).trans (kept_raiseNotice _ _ _ _ _))

/-! ### The Close Unit -/

theorem kept_sheets (b : Books) (l : List LotSheet) : b.Kept { b with sheets := l } := Kept.of_stores _ _ _ _ _ _ _ _

theorem kept_completeRound (b : Books) (n : Nat) : b.Kept (b.completeRound n) := by
  unfold completeRound
  split
  · exact ((((b.kept_sheets _).trans (kept_queueFrame _ _ _)).trans (kept_enterClosed _ _ _ _)).trans
      (kept_raiseNotice _ _ _ _ _)).trans (kept_dropRound _ _)
  · exact Kept.refl b

theorem kept_earlyCompletion (b : Books) (n : Nat) : b.Kept (b.earlyCompletion n) := by
  unfold earlyCompletion
  split
  · exact Kept.refl b
  · split
    · exact Kept.ite (b.kept_completeRound n) (Kept.refl b)
    · exact Kept.refl b
    · exact Kept.refl b

theorem kept_recordAnswer (b : Books) (n : Nat) (a : Answer) : b.Kept (b.recordAnswer n a) :=
  (b.kept_modifyRound _ _).trans (kept_earlyCompletion _ _)

theorem kept_endCloseWindow (b : Books) (n : Nat) : b.Kept (b.endCloseWindow n) := by
  unfold endCloseWindow
  split
  · exact Kept.ite (Kept.ite ((b.kept_modifyRound _ _).trans (kept_queueFrame _ _ _)) (b.kept_completeRound n))
      (Kept.ite (b.kept_modifyRound _ _) (b.kept_completeRound n))
  · exact Kept.refl b

theorem kept_endExtension (b : Books) (n : Nat) : b.Kept (b.endExtension n) := by
  unfold endExtension
  split
  · exact Kept.refl b
  · exact Kept.ite (b.kept_modifyRound _ _) (b.kept_completeRound n)

theorem kept_fillEnded (b : Books) (n : Nat) : b.Kept (b.fillEnded n) := by
  unfold fillEnded
  split
  · exact Kept.refl b
  · refine Kept.ite ?_ (Kept.refl b)
    split
    · exact b.kept_queueTally _ _ _
    · exact b.kept_recordAnswer _ _
    · exact Kept.refl b

theorem kept_fillLost (b : Books) (n : Nat) : b.Kept (b.fillLost n) :=
  (b.kept_surrenderKept n).trans (kept_fillEnded _ _)

/-- A chest whose record stands tells it of its end; one whose record has been freed tells nothing. -/
theorem chestLost_eq (b : Books) (f : Fill) : b.chestLost f = if f.freed then b else b.fillLost f.invoice := by
  unfold chestLost Fill.held
  cases f.freed <;> rfl

theorem kept_chestLost (b : Books) (f : Fill) : b.Kept (b.chestLost f) := by
  rw [chestLost_eq]
  exact Kept.ite (Kept.refl b) (b.kept_fillLost _)

/-! ### The Chest Store -/

theorem kept_putChest (b : Books) (c : Chest) : b.Kept (b.putChest c) := Kept.of_stores _ _ _ _ _ _ _ _

theorem kept_noteSlots (b : Books) : b.Kept b.noteSlots := Kept.ite (b.kept_clearCause _) (Kept.refl b)

theorem kept_dropChests (b : Books) (p : Chest → Bool) : b.Kept (b.dropChests p) :=
  (Kept.of_stores _ _ _ _ _ _ _ _).trans (kept_noteSlots _)

theorem kept_dropReservation (b : Books) : b.Kept b.dropReservation :=
  (Kept.of_stores _ _ _ _ _ _ _ _).trans (kept_noteSlots _)

theorem kept_reserve (b : Books) (k : Nat) : b.Kept (b.reserve k) := Kept.of_stores _ _ _ _ _ _ _ _

theorem kept_fillReserved (b : Books) (c : Chest) (k : Nat) : b.Kept (b.fillReserved c k) :=
  ((Kept.of_stores (b := b) _ _ _ _ _ _ _ _).trans (kept_noteSlots _)).trans (kept_evalFull _ _)

theorem kept_fillOrphan (b : Books) (c : Chest) : b.Kept (b.fillOrphan c) :=
  (Kept.of_stores (b := b) _ _ _ _ _ _ _ _).trans (kept_noteSlots _)

theorem kept_heardSerial (b : Books) (fill : Option Nat) (n x : Nat) : b.Kept (b.heardSerial fill n x) := by
  unfold heardSerial
  refine Kept.trans ?_ (kept_claimCheckIfEmptied _ _ _ _)
  refine Kept.trans ?_ (kept_raiseHigh _ _ _)
  refine b.kept_modifyInvoice n (fun _ => Invoice.yield_number _ _) (fun r h => ?_)
  unfold Invoice.freeLaw
  rw [Invoice.yield_free]
  exact Invoice.freeLaw_filter h _

theorem kept_makeHeard (b : Books) (c : Chest) : b.Kept (b.makeHeard c) :=
  Kept.ite ((b.kept_putChest c).trans (kept_evalFull _ _))
    ((b.kept_modify _ (fun _ => by rfl) (fun _ => by rfl)).trans (kept_raiseFault _ rfl))

theorem kept_storeHeard (b : Books) (k n : Nat) (r : ChestReport) (rep : Bool) : b.Kept (b.storeHeard k n r rep) := by
  unfold storeHeard
  split
  · exact b.kept_makeHeard _
  · exact Kept.ite (Kept.ite (Kept.refl b) (b.kept_putChest _))
      (Kept.ite (b.kept_putChest _) ((b.kept_putChest _).trans (kept_raiseNotice _ _ _ _ _)))

theorem kept_heardChest (b : Books) (fill : Option Nat) (k n : Nat) (r : ChestReport) (rep : Bool) :
    b.Kept (b.heardChest fill k n r rep) := by
  unfold heardChest
  split
  · exact Kept.refl b
  · have h := b.kept_joinParticipants n k
    exact Kept.ite h ((Kept.ite h (h.trans (kept_storeHeard _ _ _ _ _))).trans (kept_heardSerial _ _ _ _))

theorem kept_heardVoid (b : Books) (k n x : Nat) : b.Kept (b.heardVoid k n x) := by
  unfold heardVoid
  split
  · exact Kept.refl b
  · exact Kept.ite (Kept.ite ((b.kept_dropChests _).trans (kept_evalFull _ _))
      (Kept.ite (b.kept_putChest _) (Kept.refl b))) (Kept.refl b)

theorem kept_heardSample (b : Books) (n x w : Nat) : b.Kept (b.heardSample n x w) := by
  unfold heardSample
  split
  · exact Kept.refl b
  · exact Kept.ite (b.kept_putChest _) (Kept.refl b)

theorem kept_heardMark (b : Books) (k n x v : Nat) : b.Kept (b.heardMark k n x v) := by
  unfold heardMark
  split
  · exact Kept.refl b
  · exact Kept.ite (b.kept_putChest _) (Kept.refl b)

theorem kept_markDone (b : Books) (n x : Nat) (d : Bool) : b.Kept (b.markDone n x d) := by
  unfold markDone
  dsimp only
  split
  · exact ((b.kept_putChest _).trans (kept_queueFrame _ _ _)).trans (kept_raiseNotice _ _ _ _ _)
  · exact b.kept_raiseNotice _ _ _ _

/-! ### Frames heard -/

theorem kept_heardCensus (b : Books) (fill : Option Nat) (n v : Nat) : b.Kept (b.heardCensus fill n v) :=
  (b.kept_comparePlan _ _ _).trans (kept_queueTally _ _ _ _)

theorem kept_heardTally (b : Books) (fill : Option Nat) (k n : Nat) (t : Tally) : b.Kept (b.heardTally fill k n t) := by
  unfold heardTally
  have h₁ := b.kept_joinParticipants n k
  have h₂ := (Kept.ite (c := ((b.joinParticipants n k).invoice? n).any (fun r => r.state = .closed) = true) h₁
    (h₁.trans (kept_raiseHigh _ n t.high))).trans (kept_comparePlan _ fill n t.planned)
  exact Kept.ite (h₂.trans (kept_noteTally _ _ _ _)) (Kept.ite (h₂.trans (kept_recordAnswer _ _ _)) h₂)

theorem yieldRange_number_free (r : Invoice) (l : List Nat) :
    (l.foldl Invoice.yield r).number = r.number ∧ (l.foldl Invoice.yield r).free = r.free := by
  induction l generalizing r with
  | nil => exact ⟨rfl, rfl⟩
  | cons x l ih => exact ⟨(ih _).1.trans (r.yield_number x), (ih _).2.trans (r.yield_free x)⟩

theorem kept_heardClaim (b : Books) (fill : Option Nat) (k n v first count : Nat) :
    b.Kept (b.heardClaim fill k n v first count) := by
  unfold heardClaim
  have h := (((b.kept_modifyInvoice n
    (f := fun r => (({ r with high := max r.high (first + count - 1) } : Invoice).giveUp first count).yieldRange
      first count)
    (fun r => (yieldRange_number_free _ _).1) (fun r h => by
      unfold Invoice.freeLaw Invoice.yieldRange
      rw [(yieldRange_number_free _ _).2]
      exact Invoice.freeLaw_filter h _)).trans (kept_joinParticipants _ n k)).trans
    (kept_comparePlan _ fill n v)).trans (kept_rewriteClaim _ n)
  exact Kept.ite (h.trans (kept_claimCheck _ _)) h

theorem kept_heardReport (b : Books) (fill : Option Nat) (k n : Nat) (r : ChestReport) :
    b.Kept (b.heardReport fill k n r) :=
  (Kept.ite (Kept.refl b) (b.kept_drawAll _)).trans (kept_heardChest _ _ _ _ _ _)

theorem kept_yieldCall (b : Books) (n v : Nat) : b.Kept (b.yieldCall n v) :=
  Kept.ite ((b.kept_removeEntries _ _ _).trans (kept_raiseNotice _ _ _ _ _)) (Kept.refl b)

theorem kept_heardCall (b : Books) (fill : Option Nat) (n v : Nat) : b.Kept (b.heardCall fill n v) := by
  have h := (((b.kept_yieldCall n 1).trans (kept_enterClosing _ fill n .peer)).trans
    (kept_queueTally _ n 2 (inProgressOf fill n))).trans
    (kept_raiseNotice _ .closeCalled (some n) none (some v))
  unfold heardCall
  split
  · exact Kept.refl b
  · split
    · exact h
    · exact h
    · exact h
    · exact b.kept_queueTally _ _ _
    · exact b.kept_queueTally _ _ _

theorem kept_compareClosed (b : Books) (r : Invoice) (s p m w : Nat) : b.Kept (b.compareClosed r s p m w) :=
  b.kept_raiseNotice _ _ _ _

theorem kept_heardClosed (b : Books) (fill : Option Nat) (n s p m w : Nat) :
    b.Kept (b.heardClosed fill n s p m w) := by
  unfold heardClosed
  split
  · exact Kept.refl b
  · refine Kept.ite (Kept.refl b) (Kept.ite ?_ ?_)
    · exact (((b.kept_dropRound _).trans (kept_enterClosed _ _ _ _)).trans (kept_compareClosed _ _ _ _ _ _)).trans
        (kept_raiseNotice _ _ _ _ _)
    · exact ((b.kept_yieldCall _ _).trans (kept_enterClosed _ _ _ _)).trans (kept_compareClosed _ _ _ _ _ _)

theorem kept_remember (b : Books) (k : Nat) (f : Frame) : b.Kept (b.remember k f) := by
  unfold remember
  split <;> exact b.kept_setRepeat _ _

/-! ### Commands and events -/

theorem kept_heardIdle (b : Books) (lost : Bool) : b.Kept (b.heardIdle lost) :=
  Kept.ite (((b.kept_clearCause _).trans (kept_raiseFault _ rfl)).trans (kept_staleRequest _)) (b.kept_clearCause _)

theorem kept_callClose (b : Books) (fill : Option Nat) (n : Nat) : b.Kept (b.callClose fill n) := by
  unfold callClose
  split
  · exact Kept.refl b
  · exact b.kept_queueFrame _ _

theorem kept_recordSample (b : Books) (n x w : Nat) : b.Kept (b.recordSample n x w) := by
  unfold recordSample
  split
  · exact Kept.refl b
  · exact (b.kept_putChest _).trans (kept_queueFrame _ _ _)

theorem kept_dropInvoice (b : Books) (n : Nat) : b.Kept (b.dropInvoice n) :=
  ⟨rfl, rfl, rfl, rfl, rfl, rfl, rfl, rfl, rfl, id,
    fun h => ⟨(List.length_filter_le _ _).trans h.1, h.2.1.filter _, fun r hr => h.2.2 r (List.mem_filter.1 hr).1⟩⟩

theorem kept_abandon (b : Books) (n : Nat) : b.Kept (b.abandon n) :=
  (((b.kept_removeEntries _ _ _).trans (kept_dropChests _ _)).trans (kept_dropRound _ _)).trans (kept_dropInvoice _ _)

theorem kept_freeSheet (b : Books) (n : Nat) : b.Kept (b.freeSheet n) :=
  (Kept.of_stores _ _ _ _ _ _ _ _).ite (Kept.refl _)

theorem kept_release (b : Books) (n : Nat) : b.Kept (b.release n) :=
  (((b.kept_removeEntries _ _ _).trans (kept_dropChests _ _)).trans (kept_freeSheet _ _)).trans (kept_dropInvoice _ _)

theorem kept_takeNotice (b : Books) : b.Kept b.takeNotice := by
  have h : b.Kept { b with notices := b.notices.drop 1 } :=
    ⟨rfl, rfl, rfl, rfl, rfl, rfl, rfl, rfl, rfl,
      fun l => ⟨l.1, by have := l.2.1; unfold noticeLaw at *; simp only [List.length_drop]; omega, l.2.2⟩, id⟩
  exact Kept.ite (h.trans (kept_clearCause _ _)) h

theorem kept_sampleSeen (b : Books) (sat : Bool) : b.Kept (b.sampleSeen sat) :=
  Kept.ite (b.kept_clearCause _) ((b.kept_clearCause _).trans (kept_clearCause _ _))

theorem kept_noFlowBin (b : Books) (n : Nat) : b.Kept (b.noFlowBin n) :=
  (b.kept_emptyBin _ _).trans (kept_queueFrame _ _ _)

end Books

end Sys2Proof.Machine
end

