-- ==== Sys2Proof/Laws/State.lean ====
section
/-! SUPPORT. What each update of one block leaves as it was: one lemma for each field of State under each update. -/

namespace Sys2Proof.Machine

@[simp] theorem State.setBooks_pending (s : State) (b : Books) : (s.setBooks b).pending = s.pending := rfl
@[simp] theorem State.setBooks_inReset (s : State) (b : Books) : (s.setBooks b).inReset = s.inReset := rfl
@[simp] theorem State.setBooks_pins (s : State) (b : Books) : (s.setBooks b).pins = s.pins := rfl
@[simp] theorem State.setBooks_books (s : State) (b : Books) : (s.setBooks b).books = b := rfl
@[simp] theorem State.setBooks_line (s : State) (b : Books) : (s.setBooks b).line = s.line := rfl
@[simp] theorem State.setBooks_weigh (s : State) (b : Books) : (s.setBooks b).weigh = s.weigh := rfl
@[simp] theorem State.setBooks_filler (s : State) (b : Books) : (s.setBooks b).filler = s.filler := rfl
@[simp] theorem State.setBooks_marker (s : State) (b : Books) : (s.setBooks b).marker = s.marker := rfl
@[simp] theorem State.setBooks_port (s : State) (b : Books) : (s.setBooks b).port = s.port := rfl
@[simp] theorem State.setBooks_spare (s : State) (b : Books) : (s.setBooks b).spare = s.spare := rfl

@[simp] theorem State.setLine_pending (s : State) (l : Line) : (s.setLine l).pending = s.pending := rfl
@[simp] theorem State.setLine_inReset (s : State) (l : Line) : (s.setLine l).inReset = s.inReset := rfl
@[simp] theorem State.setLine_pins (s : State) (l : Line) : (s.setLine l).pins = s.pins := rfl
@[simp] theorem State.setLine_books (s : State) (l : Line) : (s.setLine l).books = s.books := rfl
@[simp] theorem State.setLine_line (s : State) (l : Line) : (s.setLine l).line = l := rfl
@[simp] theorem State.setLine_weigh (s : State) (l : Line) : (s.setLine l).weigh = s.weigh := rfl
@[simp] theorem State.setLine_filler (s : State) (l : Line) : (s.setLine l).filler = s.filler := rfl
@[simp] theorem State.setLine_marker (s : State) (l : Line) : (s.setLine l).marker = s.marker := rfl
@[simp] theorem State.setLine_port (s : State) (l : Line) : (s.setLine l).port = s.port := rfl
@[simp] theorem State.setLine_spare (s : State) (l : Line) : (s.setLine l).spare = s.spare := rfl

@[simp] theorem State.setWeigh_pending (s : State) (w : Weigh) : (s.setWeigh w).pending = s.pending := rfl
@[simp] theorem State.setWeigh_inReset (s : State) (w : Weigh) : (s.setWeigh w).inReset = s.inReset := rfl
@[simp] theorem State.setWeigh_pins (s : State) (w : Weigh) : (s.setWeigh w).pins = s.pins := rfl
@[simp] theorem State.setWeigh_books (s : State) (w : Weigh) : (s.setWeigh w).books = s.books := rfl
@[simp] theorem State.setWeigh_line (s : State) (w : Weigh) : (s.setWeigh w).line = s.line := rfl
@[simp] theorem State.setWeigh_weigh (s : State) (w : Weigh) : (s.setWeigh w).weigh = w := rfl
@[simp] theorem State.setWeigh_filler (s : State) (w : Weigh) : (s.setWeigh w).filler = s.filler := rfl
@[simp] theorem State.setWeigh_marker (s : State) (w : Weigh) : (s.setWeigh w).marker = s.marker := rfl
@[simp] theorem State.setWeigh_port (s : State) (w : Weigh) : (s.setWeigh w).port = s.port := rfl
@[simp] theorem State.setWeigh_spare (s : State) (w : Weigh) : (s.setWeigh w).spare = s.spare := rfl

@[simp] theorem State.setFiller_pending (s : State) (f : Filler) : (s.setFiller f).pending = s.pending := rfl
@[simp] theorem State.setFiller_inReset (s : State) (f : Filler) : (s.setFiller f).inReset = s.inReset := rfl
@[simp] theorem State.setFiller_pins (s : State) (f : Filler) : (s.setFiller f).pins = s.pins := rfl
@[simp] theorem State.setFiller_books (s : State) (f : Filler) : (s.setFiller f).books = s.books := rfl
@[simp] theorem State.setFiller_line (s : State) (f : Filler) : (s.setFiller f).line = s.line := rfl
@[simp] theorem State.setFiller_weigh (s : State) (f : Filler) : (s.setFiller f).weigh = s.weigh := rfl
@[simp] theorem State.setFiller_filler (s : State) (f : Filler) : (s.setFiller f).filler = f := rfl
@[simp] theorem State.setFiller_marker (s : State) (f : Filler) : (s.setFiller f).marker = s.marker := rfl
@[simp] theorem State.setFiller_port (s : State) (f : Filler) : (s.setFiller f).port = s.port := rfl
@[simp] theorem State.setFiller_spare (s : State) (f : Filler) : (s.setFiller f).spare = s.spare := rfl

@[simp] theorem State.setMarker_pending (s : State) (m : Marker) : (s.setMarker m).pending = s.pending := rfl
@[simp] theorem State.setMarker_inReset (s : State) (m : Marker) : (s.setMarker m).inReset = s.inReset := rfl
@[simp] theorem State.setMarker_pins (s : State) (m : Marker) : (s.setMarker m).pins = s.pins := rfl
@[simp] theorem State.setMarker_books (s : State) (m : Marker) : (s.setMarker m).books = s.books := rfl
@[simp] theorem State.setMarker_line (s : State) (m : Marker) : (s.setMarker m).line = s.line := rfl
@[simp] theorem State.setMarker_weigh (s : State) (m : Marker) : (s.setMarker m).weigh = s.weigh := rfl
@[simp] theorem State.setMarker_filler (s : State) (m : Marker) : (s.setMarker m).filler = s.filler := rfl
@[simp] theorem State.setMarker_marker (s : State) (m : Marker) : (s.setMarker m).marker = m := rfl
@[simp] theorem State.setMarker_port (s : State) (m : Marker) : (s.setMarker m).port = s.port := rfl
@[simp] theorem State.setMarker_spare (s : State) (m : Marker) : (s.setMarker m).spare = s.spare := rfl

@[simp] theorem State.setPort_pending (s : State) (p : Port) : (s.setPort p).pending = s.pending := rfl
@[simp] theorem State.setPort_inReset (s : State) (p : Port) : (s.setPort p).inReset = s.inReset := rfl
@[simp] theorem State.setPort_pins (s : State) (p : Port) : (s.setPort p).pins = s.pins := rfl
@[simp] theorem State.setPort_books (s : State) (p : Port) : (s.setPort p).books = s.books := rfl
@[simp] theorem State.setPort_line (s : State) (p : Port) : (s.setPort p).line = s.line := rfl
@[simp] theorem State.setPort_weigh (s : State) (p : Port) : (s.setPort p).weigh = s.weigh := rfl
@[simp] theorem State.setPort_filler (s : State) (p : Port) : (s.setPort p).filler = s.filler := rfl
@[simp] theorem State.setPort_marker (s : State) (p : Port) : (s.setPort p).marker = s.marker := rfl
@[simp] theorem State.setPort_port (s : State) (p : Port) : (s.setPort p).port = p := rfl
@[simp] theorem State.setPort_spare (s : State) (p : Port) : (s.setPort p).spare = s.spare := rfl

@[simp] theorem State.setPins_pending (s : State) (p : Pins) : (s.setPins p).pending = s.pending := rfl
@[simp] theorem State.setPins_inReset (s : State) (p : Pins) : (s.setPins p).inReset = s.inReset := rfl
@[simp] theorem State.setPins_pins (s : State) (p : Pins) : (s.setPins p).pins = p := rfl
@[simp] theorem State.setPins_books (s : State) (p : Pins) : (s.setPins p).books = s.books := rfl
@[simp] theorem State.setPins_line (s : State) (p : Pins) : (s.setPins p).line = s.line := rfl
@[simp] theorem State.setPins_weigh (s : State) (p : Pins) : (s.setPins p).weigh = s.weigh := rfl
@[simp] theorem State.setPins_filler (s : State) (p : Pins) : (s.setPins p).filler = s.filler := rfl
@[simp] theorem State.setPins_marker (s : State) (p : Pins) : (s.setPins p).marker = s.marker := rfl
@[simp] theorem State.setPins_port (s : State) (p : Pins) : (s.setPins p).port = s.port := rfl
@[simp] theorem State.setPins_spare (s : State) (p : Pins) : (s.setPins p).spare = s.spare := rfl

@[simp] theorem State.setPending_pending (s : State) (l : List Instr) : (s.setPending l).pending = l := rfl
@[simp] theorem State.setPending_inReset (s : State) (l : List Instr) : (s.setPending l).inReset = s.inReset := rfl
@[simp] theorem State.setPending_pins (s : State) (l : List Instr) : (s.setPending l).pins = s.pins := rfl
@[simp] theorem State.setPending_books (s : State) (l : List Instr) : (s.setPending l).books = s.books := rfl
@[simp] theorem State.setPending_line (s : State) (l : List Instr) : (s.setPending l).line = s.line := rfl
@[simp] theorem State.setPending_weigh (s : State) (l : List Instr) : (s.setPending l).weigh = s.weigh := rfl
@[simp] theorem State.setPending_filler (s : State) (l : List Instr) : (s.setPending l).filler = s.filler := rfl
@[simp] theorem State.setPending_marker (s : State) (l : List Instr) : (s.setPending l).marker = s.marker := rfl
@[simp] theorem State.setPending_port (s : State) (l : List Instr) : (s.setPending l).port = s.port := rfl
@[simp] theorem State.setPending_spare (s : State) (l : List Instr) : (s.setPending l).spare = s.spare := rfl

@[simp] theorem State.onBooks_pending (s : State) (g : Books → Books) : (s.onBooks g).pending = s.pending := rfl
@[simp] theorem State.onBooks_inReset (s : State) (g : Books → Books) : (s.onBooks g).inReset = s.inReset := rfl
@[simp] theorem State.onBooks_pins (s : State) (g : Books → Books) : (s.onBooks g).pins = s.pins := rfl
@[simp] theorem State.onBooks_books (s : State) (g : Books → Books) : (s.onBooks g).books = g s.books := rfl
@[simp] theorem State.onBooks_line (s : State) (g : Books → Books) : (s.onBooks g).line = s.line := rfl
@[simp] theorem State.onBooks_weigh (s : State) (g : Books → Books) : (s.onBooks g).weigh = s.weigh := rfl
@[simp] theorem State.onBooks_filler (s : State) (g : Books → Books) : (s.onBooks g).filler = s.filler := rfl
@[simp] theorem State.onBooks_marker (s : State) (g : Books → Books) : (s.onBooks g).marker = s.marker := rfl
@[simp] theorem State.onBooks_port (s : State) (g : Books → Books) : (s.onBooks g).port = s.port := rfl
@[simp] theorem State.onBooks_spare (s : State) (g : Books → Books) : (s.onBooks g).spare = s.spare := rfl

@[simp] theorem State.modifyFill_pending (s : State) (g : Fill → Fill) : (s.modifyFill g).pending = s.pending := rfl
@[simp] theorem State.modifyFill_inReset (s : State) (g : Fill → Fill) : (s.modifyFill g).inReset = s.inReset := rfl
@[simp] theorem State.modifyFill_pins (s : State) (g : Fill → Fill) : (s.modifyFill g).pins = s.pins := rfl
@[simp] theorem State.modifyFill_books (s : State) (g : Fill → Fill) : (s.modifyFill g).books = s.books := rfl
@[simp] theorem State.modifyFill_line (s : State) (g : Fill → Fill) : (s.modifyFill g).line = s.line := rfl
@[simp] theorem State.modifyFill_weigh (s : State) (g : Fill → Fill) : (s.modifyFill g).weigh = s.weigh := rfl
@[simp] theorem State.modifyFill_filler (s : State) (g : Fill → Fill) : (s.modifyFill g).filler = { s.filler with fill := s.filler.fill.map g } := rfl
@[simp] theorem State.modifyFill_marker (s : State) (g : Fill → Fill) : (s.modifyFill g).marker = s.marker := rfl
@[simp] theorem State.modifyFill_port (s : State) (g : Fill → Fill) : (s.modifyFill g).port = s.port := rfl
@[simp] theorem State.modifyFill_spare (s : State) (g : Fill → Fill) : (s.modifyFill g).spare = s.spare := rfl

@[simp] theorem State.toStep_pending (s : State) (k : FillStep) : (s.toStep k).pending = s.pending := rfl
@[simp] theorem State.toStep_inReset (s : State) (k : FillStep) : (s.toStep k).inReset = s.inReset := rfl
@[simp] theorem State.toStep_pins (s : State) (k : FillStep) : (s.toStep k).pins = s.pins := rfl
@[simp] theorem State.toStep_books (s : State) (k : FillStep) : (s.toStep k).books = s.books := rfl
@[simp] theorem State.toStep_line (s : State) (k : FillStep) : (s.toStep k).line = s.line := rfl
@[simp] theorem State.toStep_weigh (s : State) (k : FillStep) : (s.toStep k).weigh = s.weigh := rfl
@[simp] theorem State.toStep_filler (s : State) (k : FillStep) : (s.toStep k).filler = { s.filler with step := k, gate := .closed, flow := none } := rfl
@[simp] theorem State.toStep_marker (s : State) (k : FillStep) : (s.toStep k).marker = s.marker := rfl
@[simp] theorem State.toStep_port (s : State) (k : FillStep) : (s.toStep k).port = s.port := rfl
@[simp] theorem State.toStep_spare (s : State) (k : FillStep) : (s.toStep k).spare = s.spare := rfl

@[simp] theorem State.closeGate_pending (s : State)  : (s.closeGate).pending = s.pending := rfl
@[simp] theorem State.closeGate_inReset (s : State)  : (s.closeGate).inReset = s.inReset := rfl
@[simp] theorem State.closeGate_pins (s : State)  : (s.closeGate).pins = s.pins := rfl
@[simp] theorem State.closeGate_books (s : State)  : (s.closeGate).books = s.books := rfl
@[simp] theorem State.closeGate_line (s : State)  : (s.closeGate).line = s.line := rfl
@[simp] theorem State.closeGate_weigh (s : State)  : (s.closeGate).weigh = s.weigh := rfl
@[simp] theorem State.closeGate_filler (s : State)  : (s.closeGate).filler = { s.filler with gate := .closed } := rfl
@[simp] theorem State.closeGate_marker (s : State)  : (s.closeGate).marker = s.marker := rfl
@[simp] theorem State.closeGate_port (s : State)  : (s.closeGate).port = s.port := rfl
@[simp] theorem State.closeGate_spare (s : State)  : (s.closeGate).spare = s.spare := rfl

@[simp] theorem State.goIdle_pending (s : State)  : (s.goIdle).pending = s.pending := rfl
@[simp] theorem State.goIdle_inReset (s : State)  : (s.goIdle).inReset = s.inReset := rfl
@[simp] theorem State.goIdle_pins (s : State)  : (s.goIdle).pins = s.pins := rfl
@[simp] theorem State.goIdle_books (s : State)  : (s.goIdle).books = s.books := rfl
@[simp] theorem State.goIdle_line (s : State)  : (s.goIdle).line = s.line := rfl
@[simp] theorem State.goIdle_weigh (s : State)  : (s.goIdle).weigh = s.weigh := rfl
@[simp] theorem State.goIdle_filler (s : State)  : (s.goIdle).filler = { s.filler with step := .idle, fill := none, gate := .closed, flow := none, rejectTimer := 0 } := rfl
@[simp] theorem State.goIdle_marker (s : State)  : (s.goIdle).marker = s.marker := rfl
@[simp] theorem State.goIdle_port (s : State)  : (s.goIdle).port = s.port := rfl
@[simp] theorem State.goIdle_spare (s : State)  : (s.goIdle).spare = s.spare := rfl

@[simp] theorem State.placeRequest_pending (s : State) (who : Requester) : (s.placeRequest who).pending = s.pending := rfl
@[simp] theorem State.placeRequest_inReset (s : State) (who : Requester) : (s.placeRequest who).inReset = s.inReset := rfl
@[simp] theorem State.placeRequest_pins (s : State) (who : Requester) : (s.placeRequest who).pins = s.pins := rfl
@[simp] theorem State.placeRequest_books (s : State) (who : Requester) : (s.placeRequest who).books = s.books := rfl
@[simp] theorem State.placeRequest_line (s : State) (who : Requester) : (s.placeRequest who).line = s.line := rfl
@[simp] theorem State.placeRequest_weigh (s : State) (who : Requester) : (s.placeRequest who).weigh = { s.weigh with request := some ⟨who, s.books.time, false⟩, timer := 0 } := rfl
@[simp] theorem State.placeRequest_filler (s : State) (who : Requester) : (s.placeRequest who).filler = s.filler := rfl
@[simp] theorem State.placeRequest_marker (s : State) (who : Requester) : (s.placeRequest who).marker = s.marker := rfl
@[simp] theorem State.placeRequest_port (s : State) (who : Requester) : (s.placeRequest who).port = s.port := rfl
@[simp] theorem State.placeRequest_spare (s : State) (who : Requester) : (s.placeRequest who).spare = s.spare := rfl

@[simp] theorem State.withdrawRequest_pending (s : State)  : (s.withdrawRequest).pending = s.pending := rfl
@[simp] theorem State.withdrawRequest_inReset (s : State)  : (s.withdrawRequest).inReset = s.inReset := rfl
@[simp] theorem State.withdrawRequest_pins (s : State)  : (s.withdrawRequest).pins = s.pins := rfl
@[simp] theorem State.withdrawRequest_books (s : State)  : (s.withdrawRequest).books = s.books := rfl
@[simp] theorem State.withdrawRequest_line (s : State)  : (s.withdrawRequest).line = s.line := rfl
@[simp] theorem State.withdrawRequest_weigh (s : State)  : (s.withdrawRequest).weigh = { s.weigh with request := none, timer := 0 } := rfl
@[simp] theorem State.withdrawRequest_filler (s : State)  : (s.withdrawRequest).filler = s.filler := rfl
@[simp] theorem State.withdrawRequest_marker (s : State)  : (s.withdrawRequest).marker = s.marker := rfl
@[simp] theorem State.withdrawRequest_port (s : State)  : (s.withdrawRequest).port = s.port := rfl
@[simp] theorem State.withdrawRequest_spare (s : State)  : (s.withdrawRequest).spare = s.spare := rfl

@[simp] theorem State.setStation_pending (s : State) (st : StationState) : (s.setStation st).pending = s.pending := rfl
@[simp] theorem State.setStation_inReset (s : State) (st : StationState) : (s.setStation st).inReset = s.inReset := rfl
@[simp] theorem State.setStation_pins (s : State) (st : StationState) : (s.setStation st).pins = s.pins := rfl
@[simp] theorem State.setStation_books (s : State) (st : StationState) : (s.setStation st).books = { s.books with station := st } := rfl
@[simp] theorem State.setStation_line (s : State) (st : StationState) : (s.setStation st).line = s.line := rfl
@[simp] theorem State.setStation_weigh (s : State) (st : StationState) : (s.setStation st).weigh = s.weigh := rfl
@[simp] theorem State.setStation_filler (s : State) (st : StationState) : (s.setStation st).filler = s.filler := rfl
@[simp] theorem State.setStation_marker (s : State) (st : StationState) : (s.setStation st).marker = s.marker := rfl
@[simp] theorem State.setStation_port (s : State) (st : StationState) : (s.setStation st).port = s.port := rfl
@[simp] theorem State.setStation_spare (s : State) (st : StationState) : (s.setStation st).spare = s.spare := rfl

@[simp] theorem State.take_pending (s : State) (code : Byte) (n : Nat) : (s.take code n).pending = s.pending := rfl
@[simp] theorem State.take_inReset (s : State) (code : Byte) (n : Nat) : (s.take code n).inReset = s.inReset := rfl
@[simp] theorem State.take_pins (s : State) (code : Byte) (n : Nat) : (s.take code n).pins = s.pins := rfl
@[simp] theorem State.take_books (s : State) (code : Byte) (n : Nat) : (s.take code n).books = s.books := rfl
@[simp] theorem State.take_line (s : State) (code : Byte) (n : Nat) : (s.take code n).line = s.line := rfl
@[simp] theorem State.take_weigh (s : State) (code : Byte) (n : Nat) : (s.take code n).weigh = s.weigh := rfl
@[simp] theorem State.take_filler (s : State) (code : Byte) (n : Nat) : (s.take code n).filler = s.filler := rfl
@[simp] theorem State.take_marker (s : State) (code : Byte) (n : Nat) : (s.take code n).marker = s.marker := rfl
@[simp] theorem State.take_port (s : State) (code : Byte) (n : Nat) : (s.take code n).port = { busy := true, ready := false, command := some code, reply := none, buffer := none, miso := s.misoOf (n + 2) } := rfl
@[simp] theorem State.take_spare (s : State) (code : Byte) (n : Nat) : (s.take code n).spare = s.spare := rfl

@[simp] theorem State.transact_pending (s : State) (miso : List Byte) : (s.transact miso).pending = s.pending := rfl
@[simp] theorem State.transact_inReset (s : State) (miso : List Byte) : (s.transact miso).inReset = s.inReset := rfl
@[simp] theorem State.transact_pins (s : State) (miso : List Byte) : (s.transact miso).pins = s.pins := rfl
@[simp] theorem State.transact_books (s : State) (miso : List Byte) : (s.transact miso).books = s.books := rfl
@[simp] theorem State.transact_line (s : State) (miso : List Byte) : (s.transact miso).line = s.line := rfl
@[simp] theorem State.transact_weigh (s : State) (miso : List Byte) : (s.transact miso).weigh = s.weigh := rfl
@[simp] theorem State.transact_filler (s : State) (miso : List Byte) : (s.transact miso).filler = s.filler := rfl
@[simp] theorem State.transact_marker (s : State) (miso : List Byte) : (s.transact miso).marker = s.marker := rfl
@[simp] theorem State.transact_port (s : State) (miso : List Byte) : (s.transact miso).port = { s.port with miso := miso } := rfl
@[simp] theorem State.transact_spare (s : State) (miso : List Byte) : (s.transact miso).spare = s.spare := rfl

@[simp] theorem State.spend_pending (s : State) (k : Nat) : (s.spend k).pending = s.pending := rfl
@[simp] theorem State.spend_inReset (s : State) (k : Nat) : (s.spend k).inReset = s.inReset := rfl
@[simp] theorem State.spend_pins (s : State) (k : Nat) : (s.spend k).pins = s.pins := rfl
@[simp] theorem State.spend_books (s : State) (k : Nat) : (s.spend k).books = s.books := rfl
@[simp] theorem State.spend_line (s : State) (k : Nat) : (s.spend k).line = s.line := rfl
@[simp] theorem State.spend_weigh (s : State) (k : Nat) : (s.spend k).weigh = s.weigh := rfl
@[simp] theorem State.spend_filler (s : State) (k : Nat) : (s.spend k).filler = s.filler := rfl
@[simp] theorem State.spend_marker (s : State) (k : Nat) : (s.spend k).marker = s.marker := rfl
@[simp] theorem State.spend_port (s : State) (k : Nat) : (s.spend k).port = s.port := rfl
@[simp] theorem State.spend_spare (s : State) (k : Nat) : (s.spend k).spare = s.spare + k := rfl

/-! ### A response that has been made becomes ready -/

theorem Port.ripen_made {p : Port} {r : Response} (hb : p.busy = true) (hr : p.reply = some r) :
    p.ripen = p.deliver r := by unfold ripen; rw [hb, hr]

theorem Port.ripen_unmade {p : Port} (h : p.busy = false ∨ p.reply = none) : p.ripen = p := by
  unfold ripen
  rcases h with h | h
  · rw [h]
  · rw [h]; cases p.busy <;> rfl

@[simp] theorem State.elapse_pending (s : State) (d : Nat) : (s.elapse d).pending = s.pending := rfl
@[simp] theorem State.elapse_inReset (s : State) (d : Nat) : (s.elapse d).inReset = s.inReset := rfl
@[simp] theorem State.elapse_pins (s : State) (d : Nat) : (s.elapse d).pins = s.pins := rfl
@[simp] theorem State.elapse_books (s : State) (d : Nat) : (s.elapse d).books = { s.books with time := later s.books.time d } := rfl
@[simp] theorem State.elapse_line (s : State) (d : Nat) : (s.elapse d).line = s.line := rfl
@[simp] theorem State.elapse_marker (s : State) (d : Nat) : (s.elapse d).marker = s.marker := rfl
@[simp] theorem State.elapse_port (s : State) (d : Nat) :
    (s.elapse d).port = if d = 0 then s.port else s.port.ripen := rfl
@[simp] theorem State.elapse_spare (s : State) (d : Nat) : (s.elapse d).spare = s.spare := rfl

end Sys2Proof.Machine
end

