-- ==== Sys2Proof/Laws/Port.lean ====
section
/-! SUPPORT. What taking a command does: discarded while BUSY, refused by the first four checks of R174, or acted on by
its own body; and what making a response does. -/

namespace Sys2Proof.Machine

theorem State.misoOf_params (s : State) (p : Params) :
    s.misoOf (p.stated.length + p.beyond.length + 2) = s.misoBytes p := rfl

/-- A response made for a command in hand. -/
theorem State.reply_some {s : State} {code : Byte} (h : s.port.command = some code) (st : Status) (data : List Byte) :
    s.reply st data = s.setPort { s.port with reply := some ⟨code, st, data⟩ } := by
  unfold reply; rw [h]

/-- A response made at once for a command just taken. -/
theorem State.reply_take (s : State) (code : Byte) (p : Params) (st : Status) (data : List Byte) :
    (s.take code (p.stated.length + p.beyond.length)).reply st data = { s with port := s.answered code p st data } := rfl

/-- A response made when a command's body has changed the tables alone. -/
theorem State.reply_take_onBooks (s : State) (code : Byte) (p : Params) (f : Books → Books) (st : Status)
    (data : List Byte) :
    ((s.take code (p.stated.length + p.beyond.length)).onBooks f).reply st data
      = { s with books := f s.books, port := s.answered code p st data } := rfl

theorem State.reply_pending (s : State) (st : Status) (data : List Byte) : (s.reply st data).pending = s.pending := by
  unfold reply; split <;> rfl

theorem State.reply_books (s : State) (st : Status) (data : List Byte) : (s.reply st data).books = s.books := by
  unfold reply; split <;> rfl

theorem State.reply_pins (s : State) (st : Status) (data : List Byte) : (s.reply st data).pins = s.pins := by
  unfold reply; split <;> rfl

theorem State.reply_line (s : State) (st : Status) (data : List Byte) : (s.reply st data).line = s.line := by
  unfold reply; split <;> rfl

theorem State.reply_weigh (s : State) (st : Status) (data : List Byte) : (s.reply st data).weigh = s.weigh := by
  unfold reply; split <;> rfl

theorem State.reply_filler (s : State) (st : Status) (data : List Byte) : (s.reply st data).filler = s.filler := by
  unfold reply; split <;> rfl

theorem State.reply_marker (s : State) (st : Status) (data : List Byte) : (s.reply st data).marker = s.marker := by
  unfold reply; split <;> rfl

theorem State.reply_inReset (s : State) (st : Status) (data : List Byte) : (s.reply st data).inReset = s.inReset := by
  unfold reply; split <;> rfl

theorem State.reply_spare (s : State) (st : Status) (data : List Byte) : (s.reply st data).spare = s.spare := by
  unfold reply; split <;> rfl

/-- A command that is taken and passes the first four checks acts by its body. -/
theorem State.hostCommand_admits {s : State} {code : Byte} {p : Params} (h : s.admits code p)
    (data : State → List Byte) (body : State → State) : s.hostCommand code p data body = body (s.take code (p.stated.length + p.beyond.length)) := by
  obtain ⟨⟨h₁, h₂⟩, h₃⟩ := h
  simp [hostCommand, h₁, h₂, h₃]

/-- A command that is taken and fails one of the first four checks changes nothing but the port. -/
theorem State.hostCommand_refused {s : State} {code : Byte} {p : Params} {st : Status} (h : s.portFree)
    (k : refusalOf code p.stated.length s.books.station = some st) (data : State → List Byte) (body : State → State) :
    s.hostCommand code p data body = { s with port := s.answered code p st (data (s.take code (p.stated.length + p.beyond.length))) } := by
  have hb : (s.port.busy || s.inReset) = false := by rw [h.1, h.2]; rfl
  unfold hostCommand
  rw [if_neg (by rw [hb]; decide)]
  simp only [take_books, k]
  rfl

/-- A command transaction begun while BUSY changes nothing but what MISO returned. -/
theorem State.hostCommand_busy {s : State} (h : s.port.busy = true) (code : Byte) (p : Params)
    (data : State → List Byte) (body : State → State) :
    s.hostCommand code p data body = { s with port := { s.port with miso := s.misoBytes p } } := by
  unfold hostCommand
  rw [if_pos (by rw [h]; rfl)]
  rfl

/-- The three ways a command transaction goes: what holds of the unchanged tables and port-only changes, and of the
body, holds of the whole. -/
theorem State.hostCommand_cases {P : State → Prop} (s : State) (code : Byte) (p : Params) (data : State → List Byte)
    (body : State → State) (port : ∀ q : Port, P { s with port := q })
    (run : s.inReset = false → refusalOf code p.stated.length s.books.station = none → P (body (s.take code (p.stated.length + p.beyond.length)))) :
    P (s.hostCommand code p data body) := by
  unfold hostCommand
  split
  · exact port _
  · next h =>
    simp only [Bool.or_eq_true, not_or, Bool.not_eq_true] at h
    simp only [take_books]
    split
    · exact port _
    · next k => exact run h.2 k

end Sys2Proof.Machine
end

