-- ==== Sys2Proof/Laws/Lane.lean ====
section
/-! SUPPORT. What the operations of the lane's blocks keep: the queue of commands, the inputs, the line, what
`Books.Kept` says of the tables, and the range of the in-flight values. -/

namespace Sys2Proof.Machine

/-- What an operation of the lane's blocks never changes, and the laws it keeps. -/
structure State.Flows (s t : State) : Prop where
  pending : t.pending = s.pending
  inReset : t.inReset = s.inReset
  pins : t.pins = s.pins
  line : t.line = s.line
  spare : t.spare = s.spare
  books : s.books.Kept t.books
  inflight : s.inflightLaw → t.inflightLaw

namespace State

theorem Flows.refl (s : State) : s.Flows s := ⟨rfl, rfl, rfl, rfl, rfl, Books.Kept.refl _, id⟩

theorem Flows.trans {a b c : State} (h : a.Flows b) (k : b.Flows c) : a.Flows c :=
  ⟨k.pending.trans h.pending, k.inReset.trans h.inReset, k.pins.trans h.pins, k.line.trans h.line,
    k.spare.trans h.spare, h.books.trans k.books, fun l => k.inflight (h.inflight l)⟩

theorem Flows.ite {c : Prop} [Decidable c] {a b b' : State} (h : a.Flows b) (k : a.Flows b') :
    a.Flows (if c then b else b') := by split <;> assumption

/-- Tables changed by an operation that keeps what tables keep. -/
theorem flows_onBooks (s : State) {f : Books → Books} (h : s.books.Kept (f s.books)) : s.Flows (s.onBooks f) :=
  ⟨rfl, rfl, rfl, rfl, rfl, h, id⟩

theorem flows_setBooks (s : State) {b : Books} (h : s.books.Kept b) : s.Flows (s.setBooks b) :=
  ⟨rfl, rfl, rfl, rfl, rfl, h, id⟩

theorem flows_setWeigh (s : State) (w : Weigh) : s.Flows (s.setWeigh w) :=
  ⟨rfl, rfl, rfl, rfl, rfl, Books.Kept.refl _, id⟩

theorem flows_setMarker (s : State) (m : Marker) : s.Flows (s.setMarker m) :=
  ⟨rfl, rfl, rfl, rfl, rfl, Books.Kept.refl _, id⟩

theorem flows_setPort (s : State) (p : Port) : s.Flows (s.setPort p) :=
  ⟨rfl, rfl, rfl, rfl, rfl, Books.Kept.refl _, id⟩

/-- The Fill Sequencer's state changed, its in-flight values left. -/
theorem flows_setFiller (s : State) (f : Filler) (h : f.inflight = s.filler.inflight) : s.Flows (s.setFiller f) :=
  ⟨rfl, rfl, rfl, rfl, rfl, Books.Kept.refl _, fun l => by unfold inflightLaw at *; simpa [h] using l⟩

theorem flows_modifyFill (s : State) (f : Fill → Fill) : s.Flows (s.modifyFill f) := s.flows_setFiller _ (by rfl)

theorem flows_toStep (s : State) (k : FillStep) : s.Flows (s.toStep k) := s.flows_setFiller _ (by rfl)

theorem flows_closeGate (s : State) : s.Flows s.closeGate := s.flows_setFiller _ (by rfl)

theorem flows_goIdle (s : State) : s.Flows s.goIdle := s.flows_setFiller _ (by rfl)

theorem flows_reply (s : State) (st : Status) (d : List Byte) : s.Flows (s.reply st d) := by
  unfold reply
  split
  · exact Flows.refl s
  · exact s.flows_setPort _

/-! ### Settles -/

theorem flows_placeRequest (s : State) (who : Requester) : s.Flows (s.placeRequest who) := s.flows_setWeigh _

theorem flows_withdrawRequest (s : State) : s.Flows s.withdrawRequest := s.flows_setWeigh _

theorem flows_withdrawLane (s : State) : s.Flows s.withdrawLane :=
  Flows.ite s.flows_withdrawRequest (Flows.refl s)

theorem flows_askSettle (s : State) (who : Requester) : s.Flows (s.askSettle who) :=
  Flows.ite (Flows.refl s) (s.flows_placeRequest who)

theorem flows_enterClear (s : State) : s.Flows s.enterClear := by
  unfold enterClear
  exact Flows.ite (s.flows_toStep _) (Flows.ite ((s.flows_toStep _).trans (flows_goIdle _))
    ((s.flows_toStep _).trans (flows_askSettle _ _)))

/-! ### Rejection and the cut -/

theorem flows_queueReport (s : State) (f : Fill) : s.Flows (s.queueReport f) :=
  Flows.ite (s.flows_onBooks (Books.kept_queueFrame _ _ _)) (Flows.refl s)

theorem flows_enterReject (s : State) (reason : RejectReason) : s.Flows (s.enterReject reason) := by
  unfold enterReject
  have h := (s.flows_withdrawLane.trans (flows_toStep _ .reject)).trans
    (flows_modifyFill _ (fun f => { f with reason := some reason }))
  dsimp only
  split
  · exact h
  · refine Flows.trans ?_ (flows_setFiller _ _ (by rfl))
    refine Flows.trans ?_ (flows_onBooks _ ((Books.kept_dropReservation _).trans (Books.kept_chestLost _ _)))
    refine Flows.trans ?_ (flows_queueReport _ _)
    exact h.trans (flows_onBooks _ (Books.kept_raiseNotice _ _ _ _ _))

theorem flows_cutFill (s : State) : s.Flows s.cutFill :=
  (s.flows_closeGate.trans (flows_withdrawLane _)).trans (flows_modifyFill _ _)

theorem flows_endUndrawn (s : State) : s.Flows s.endUndrawn := by
  unfold endUndrawn
  split
  · exact Flows.refl s
  · exact s.flows_onBooks ((Books.kept_dropReservation _).trans (Books.kept_chestLost _ _))

theorem flows_abortFill (s : State) (reason : RejectReason) : s.Flows (s.abortFill reason) := by
  unfold abortFill
  have h := s.flows_cutFill
  exact Flows.ite (h.trans (flows_enterReject _ _)) (Flows.ite
    (((h.trans (flows_toStep _ _)).trans (flows_endUndrawn _)).trans (flows_goIdle _))
    (((h.trans (flows_toStep _ _)).trans (flows_endUndrawn _)).trans (flows_enterClear _)))

theorem flows_overload (s : State) : s.Flows s.overload := s.flows_cutFill.trans (flows_enterReject _ _)

/-! ### Acceptance -/

theorem flows_startMark (s : State) (who : MarkFor) (n x : Nat) : s.Flows (s.startMark who n x) := by
  unfold startMark
  split
  · exact s.flows_setMarker _
  · exact Flows.refl s

theorem flows_orphan (s : State) (f : Fill) : s.Flows (s.orphan f) := by
  unfold orphan
  refine Flows.trans (s.flows_setBooks ?_) (flows_enterClear _)
  refine Books.Kept.trans ?_ (Books.kept_queueFrame _ _ _)
  refine Books.Kept.trans ?_ (Books.kept_raiseNotice _ _ _ _ _)
  refine Books.Kept.trans ?_ (Books.kept_raiseFault _ rfl)
  exact Books.Kept.ite (Books.kept_fillOrphan _ _) (Books.kept_dropReservation _)

theorem freeLaw_erase {r : Invoice} (h : r.freeLaw) (x : Nat) : ({ r with free := r.free.erase x } : Invoice).freeLaw :=
  ⟨(List.length_erase_le).trans h.1, h.2.sublist List.erase_sublist⟩

theorem flows_acceptAs (s : State) (f : Fill) (x : Nat) : s.Flows (s.acceptAs f x) := by
  unfold acceptAs
  refine Flows.trans (s.flows_setBooks ?_) (flows_modifyFill _ _)
  refine Books.Kept.trans ?_ (Books.kept_fillEnded _ _)
  refine Books.Kept.trans ?_ (Books.kept_raiseNotice _ _ _ _ _)
  refine Books.Kept.trans ?_ (Books.kept_queueFrame _ _ _)
  refine Books.Kept.trans ?_ (Books.kept_fillReserved _ _ _)
  exact s.books.kept_modifyInvoice _ (fun _ => by rfl) (fun _ h => freeLaw_erase h x)

theorem flows_afterAccept (s : State) (n x : Nat) : s.Flows (s.afterAccept n x) := by
  unfold afterAccept
  exact Flows.ite ((s.flows_toStep _).trans (flows_startMark _ _ _ _))
    ((s.flows_onBooks (Books.kept_queueFrame _ _ _)).trans (flows_enterClear _))

theorem flows_accept (s : State) : s.Flows s.accept := by
  unfold accept
  have h := s.flows_toStep .accept
  dsimp only
  split
  · exact h
  · split
    · exact h.trans (flows_orphan _ _)
    · split
      · exact h.trans (flows_orphan _ _)
      · split
        · exact h.trans (flows_enterReject _ _)
        · exact (h.trans (flows_acceptAs _ _ _)).trans (flows_afterAccept _ _ _)

/-! ### Feeding -/

theorem flows_setGate (s : State) (k : Nat) (g : Gate) (isFine : Bool) (net : Int) :
    s.Flows (s.setGate k g isFine net) := (s.flows_setFiller _ (by rfl)).trans (flows_modifyFill _ _)

theorem flows_enterSettle (s : State) (k : Nat) : s.Flows (s.enterSettle k) :=
  (s.flows_toStep _).trans (flows_askSettle _ _)

theorem flows_feedGate (s : State) (k : Nat) : s.Flows (s.feedGate k) := by
  unfold feedGate
  split
  · exact Flows.ite (s.flows_enterSettle k) (Flows.ite (s.flows_setGate _ _ _ _) (s.flows_setGate _ _ _ _))
  · exact Flows.refl s

theorem flows_enterFeed (s : State) (k : Nat) : s.Flows (s.enterFeed k) :=
  ((s.flows_toStep _).trans (flows_modifyFill _ _)).trans (flows_feedGate _ _)

theorem flows_endTopup (s : State) (how : TopupEnd) : s.Flows (s.endTopup how) :=
  ((s.flows_toStep _).trans (flows_modifyFill _ _)).trans (flows_askSettle _ _)

theorem flows_topupGate (s : State) : s.Flows s.topupGate := by
  unfold topupGate
  split
  · split
    · exact Flows.ite (s.flows_endTopup _) (s.flows_setGate _ _ _ _)
    · exact Flows.refl s
  · exact Flows.refl s

theorem flows_enterTopup (s : State) (net : Int) : s.Flows (s.enterTopup net) := by
  unfold enterTopup
  have h := (s.flows_toStep .topup).trans (flows_modifyFill _ (fun f =>
    { f with topupDone := true, netBefore := some net, topupComp := s.books.chooseTopup 1 f.recipe none,
             topupEnd := none }))
  exact Flows.ite (h.trans (flows_topupGate _)) (h.trans (flows_enterReject _ _))

theorem flows_check (s : State) (net : Int) : s.Flows (s.check net) := by
  unfold check
  have h := (s.flows_toStep .check).trans (flows_modifyFill _ (fun f => { f with net := some net }))
  dsimp only
  split
  · exact h
  · exact Flows.ite (h.trans (flows_enterReject _ _)) (Flows.ite (h.trans (flows_accept _))
      (Flows.ite (h.trans (flows_enterReject _ _)) (h.trans (flows_enterTopup _ _))))

theorem flows_enterTare (s : State) : s.Flows s.enterTare := (s.flows_toStep _).trans (flows_askSettle _ _)

theorem flows_tareSettled (s : State) (r : Reading) : s.Flows (s.tareSettled r) := by
  unfold tareSettled
  split
  · exact Flows.refl s
  · exact Flows.ite (s.flows_enterReject _) ((s.flows_modifyFill _).trans (flows_enterFeed _ _))

theorem adapted_le (value : Nat) (error : Int) : adapted value error ≤ 300 := by
  unfold adapted clamp
  omega

theorem flows_adapt (s : State) (n : Nat) (c : CompState) (net : Int) : s.Flows (s.adapt n c net) := by
  unfold adapt
  refine Flows.ite (Flows.ite ?_ (s.flows_onBooks (Books.kept_raiseNotice _ _ _ _ _))) (Flows.refl s)
  refine ⟨rfl, rfl, rfl, rfl, rfl, Books.Kept.refl _, fun l => ?_⟩
  unfold inflightLaw at *
  intro v hv
  simp only [setFiller_filler, Vector.mem_toList_iff] at hv
  rw [Vector.mem_iff_getElem] at hv
  obtain ⟨i, hi, rfl⟩ := hv
  rw [Vector.getElem_setIfInBounds]
  split
  · exact adapted_le _ _
  · exact l _ (by simp)

theorem flows_componentSettled (s : State) (k : Nat) (r : Reading) : s.Flows (s.componentSettled k r) := by
  unfold componentSettled
  split
  · exact Flows.refl s
  · split
    · exact Flows.refl s
    · have h := fun (g : Fill → Fill) n c net => (s.flows_modifyFill g).trans (flows_adapt _ n c net)
      exact Flows.ite ((h _ _ _ _).trans (flows_enterFeed _ _)) ((h _ _ _ _).trans (flows_check _ _))

theorem flows_topupSettled (s : State) (r : Reading) : s.Flows (s.topupSettled r) := by
  unfold topupSettled
  split
  · exact Flows.refl s
  · exact (s.flows_modifyFill _).trans (flows_check _ _)

/-! ### Updates, CHEST and HOLD -/

theorem flows_followNet (s : State) : s.Flows s.followNet := by
  unfold followNet
  split
  · exact s.flows_modifyFill _
  · exact Flows.refl s

theorem flows_validUpdate (s : State) (r : Reading) : s.Flows (s.validUpdate r) := by
  unfold validUpdate
  have h := s.flows_followNet
  refine Flows.ite h ?_
  split
  · exact Flows.ite (h.trans (flows_overload _)) (h.trans (flows_feedGate _ _))
  · exact Flows.ite h (Flows.ite (h.trans (flows_overload _)) (h.trans (flows_topupGate _)))
  all_goals exact h

theorem flows_readingUpdate (s : State) : s.Flows s.readingUpdate := by
  unfold readingUpdate
  split
  · exact s.flows_validUpdate _
  · exact s.flows_closeGate

theorem flows_chestRises (s : State) : s.Flows s.chestRises := by
  unfold chestRises
  split
  · exact s.flows_enterTare
  · exact Flows.ite (s.flows_withdrawRequest.trans (flows_goIdle _)) (Flows.refl s)
  all_goals exact Flows.refl s

theorem flows_chestFalls (s : State) : s.Flows s.chestFalls := by
  have h := s.flows_cutFill.trans (flows_enterReject _ .chestLost)
  unfold chestFalls
  split
  · exact h
  · exact h
  · exact h
  · exact h
  · exact s.flows_enterClear
  all_goals exact Flows.refl s

theorem flows_chestEdgeAt (s : State) (level : Bool) : s.Flows (s.chestEdgeAt level) :=
  Flows.ite ((s.flows_setFiller _ (by rfl)).trans (flows_chestRises _))
    ((s.flows_setFiller _ (by rfl)).trans (flows_chestFalls _))

theorem flows_restart (s : State) : s.Flows s.restart := by
  have h := s.flows_setFiller { s.filler with flow := none } rfl
  unfold restart
  split
  · exact s.flows_askSettle _
  · exact s.flows_askSettle _
  · exact h.trans (flows_feedGate _ _)
  · exact Flows.ite (s.flows_askSettle _) ((h.trans (flows_modifyFill _ _)).trans (flows_topupGate _))
  · exact s.flows_setFiller _ (by rfl)
  · exact s.flows_enterClear
  all_goals exact Flows.refl s

/-! ### Marks -/

theorem flows_endMark (s : State) (j : Job) : s.Flows (s.endMark j) := by
  unfold endMark
  have h := (s.flows_setMarker s.marker.stop).trans
    (flows_onBooks _ (f := (·.markDone j.invoice j.serial j.defect)) (Books.kept_markDone _ _ _ _))
  dsimp only
  split
  · exact Flows.ite (h.trans (flows_enterClear _)) h
  · exact h

theorem flows_haltMark (s : State) : s.Flows s.haltMark := by
  unfold haltMark
  split
  · exact Flows.refl s
  · exact (s.flows_setMarker _).trans (flows_endMark _ _)

theorem flows_pulse (s : State) (j : Job) : s.Flows (s.pulse j) := by
  unfold pulse
  split
  · exact Flows.refl s
  · exact (s.flows_setMarker _).trans (flows_onBooks _ (Books.kept_raiseFault _ rfl))
  · exact (s.flows_setMarker _).trans (flows_onBooks _ (Books.kept_raiseFault _ rfl))
  · exact Flows.ite ((s.flows_setMarker _).trans (flows_setMarker _ _)) ((s.flows_setMarker _).trans (flows_endMark _ _))

theorem flows_nozzleCheck (s : State) (j : Job) (ready : BitVec 32) : s.Flows (s.nozzleCheck j ready) := by
  unfold nozzleCheck
  exact Flows.ite ((s.flows_setMarker _).trans (flows_onBooks _ (Books.kept_raiseFault _ rfl)))
    ((s.flows_setMarker _).trans (flows_onBooks _ (Books.kept_clearCause _ _)))

theorem flows_shiftEnds (s : State) (h : Head) : s.Flows (s.shiftEnds h) := by
  unfold shiftEnds
  split
  · exact Flows.refl s
  · exact Flows.ite ((s.flows_setMarker _).trans (flows_setMarker _ _))
      (Flows.ite ((s.flows_setMarker _).trans (flows_setMarker _ _)) ((s.flows_setMarker _).trans (flows_endMark _ _)))

theorem flows_shiftDone (s : State) (h : Head) (j : Job) (dataIn : BitVec 32) : s.Flows (s.shiftDone h j dataIn) := by
  unfold shiftDone
  split
  · exact (s.flows_nozzleCheck _ _).trans (flows_shiftEnds _ _)
  · exact s.flows_shiftEnds _

/-! ### Settles handed out, and no flow -/

theorem flows_setZero (s : State) (z : Int) : s.Flows (s.setZero z) := s.flows_setWeigh _

theorem flows_captureSettled (s : State) (r : Reading) : s.Flows (s.captureSettled r) :=
  (Flows.ite (s.flows_setZero _) (s.flows_onBooks (Books.kept_raiseFault _ rfl))).trans (flows_goIdle _)

theorem flows_zeroSettled (s : State) (r : Reading) : s.Flows (s.zeroSettled r) :=
  Flows.ite ((s.flows_setZero _).trans (flows_reply _ _ _))
    ((s.flows_onBooks (Books.kept_raiseFault _ rfl)).trans (flows_reply _ _ _))

theorem flows_fillSettled (s : State) (r : Reading) : s.Flows (s.fillSettled r) := by
  unfold fillSettled
  split
  · exact s.flows_tareSettled r
  · exact s.flows_componentSettled _ r
  · exact s.flows_topupSettled r
  all_goals exact Flows.refl s

theorem flows_handSettled (s : State) (who : Requester) (r : Reading) : s.Flows (s.handSettled who r) := by
  cases who
  · exact s.flows_fillSettled r
  · exact s.flows_captureSettled r
  · exact s.flows_zeroSettled r

theorem flows_completeSettle (s : State) : s.Flows s.completeSettle := by
  unfold completeSettle
  split
  · exact (s.flows_withdrawRequest.trans (flows_onBooks _ (Books.kept_clearCause _ _))).trans (flows_handSettled _ _ _)
  · exact Flows.refl s

theorem flows_markShort (s : State) (k : Nat) : s.Flows (s.markShort k) := by
  unfold markShort
  dsimp only
  split
  · exact (s.flows_modifyFill _).trans (flows_onBooks _ (Books.kept_noFlowBin _ _))
  · exact s.flows_modifyFill _

theorem flows_findNoFlow (s : State) : s.Flows s.findNoFlow := by
  unfold findNoFlow
  split
  · exact (s.flows_closeGate.trans (flows_markShort _ _)).trans (flows_enterSettle _ _)
  · split
    · exact (s.flows_closeGate.trans (flows_markShort _ _)).trans (flows_endTopup _ _)
    · exact s.flows_closeGate
  all_goals exact s.flows_closeGate

/-- Starting a fill. -/
theorem flows_armFill (s : State) (r : Invoice) (k : Nat) : s.Flows (s.armFill r k) :=
  (((s.flows_setBooks (Books.kept_reserve _ _)).trans (flows_setFiller _ _ (by rfl))).trans
    (flows_onBooks _ (Books.kept_claimCheck _ _))).trans (flows_toStep _ _)

/-! ### HALT -/

theorem flows_haltFill (s : State) : s.Flows s.haltFill := by
  unfold haltFill
  split
  · exact s.flows_abortFill _
  · exact s.flows_abortFill _
  · exact s.flows_abortFill _
  · exact s.flows_abortFill _
  · exact s.flows_abortFill _
  · exact s.flows_abortFill _
  · exact Flows.ite (Flows.refl s) (s.flows_withdrawLane.trans (flows_goIdle _))
  all_goals exact Flows.refl s

/-- What follows the change of station state on entry to HALT. -/
theorem flows_enterHalt (s : State) : (s.setStation .halt).Flows s.enterHalt := by
  unfold enterHalt
  exact (((flows_haltFill _).trans (flows_haltMark _)).trans (flows_onBooks _ (Books.kept_removeClaims _ _))).trans
    (flows_withdrawLane _)

/-! ### OFFLINE -/

theorem flows_offlineFill (s : State) : s.Flows s.offlineFill := by
  unfold offlineFill
  split
  · exact s.flows_goIdle
  · refine Flows.ite ?_ ((s.flows_onBooks (Books.kept_dropReservation _)).trans (flows_goIdle _))
    have h := s.flows_cutFill.trans (flows_toStep _ .idle)
    dsimp only
    split
    · exact h.trans (flows_goIdle _)
    · refine Flows.trans ?_ (flows_goIdle _)
      refine Flows.trans ?_ (flows_onBooks _ ((Books.kept_chestLost _ _).trans (Books.kept_dropReservation _)))
      exact Flows.ite ((h.trans (flows_onBooks _ (Books.kept_raiseNotice _ _ _ _ _))).trans (flows_queueReport _ _)) h

theorem flows_offlineWeigh (s : State) : s.Flows s.offlineWeigh :=
  Flows.ite (s.flows_withdrawRequest.trans (flows_reply _ _ _)) s.flows_withdrawRequest

end State

end Sys2Proof.Machine
end

