-- ==== Sys2Proof/Laws/Gates.lean ====
section
/-! SUPPORT. What the operations of the lane's blocks do to the law of the gates (R101, R121): a gate is open only in
FEED(k) and TOPUP with HOLD inactive, no settle request of the lane stands under HOLD, and a fill runs only in ONLINE. -/

namespace Sys2Proof.Machine

namespace State

/-- The law of the gates, with a fill only in ONLINE. -/
structure LaneLaw (s : State) : Prop where
  gate : s.filler.gate.isOpen = true → s.filler.step.feeds = true ∧ s.pins.hold = false
  request : s.pins.hold = true → s.weigh.request.any (fun q => q.who.ofLane) = false
  fill : s.filler.step.inFill = true → s.books.station = .online

/-- The law looks only at the gate, the step, HOLD, the settle request and the station state. -/
theorem LaneLaw.congr {s t : State} (h : s.LaneLaw) (gate : t.filler.gate = s.filler.gate)
    (step : t.filler.step = s.filler.step) (hold : t.pins.hold = s.pins.hold) (req : t.weigh.request = s.weigh.request)
    (station : t.books.station = s.books.station) : t.LaneLaw :=
  ⟨by rw [gate, step, hold]; exact h.gate, by rw [hold, req]; exact h.request, by rw [step, station]; exact h.fill⟩

theorem LaneLaw.onBooks {s : State} (h : s.LaneLaw) {f : Books → Books} (k : s.books.Kept (f s.books)) :
    (s.onBooks f).LaneLaw := h.congr rfl rfl rfl rfl k.station

theorem LaneLaw.setMarker {s : State} (h : s.LaneLaw) (m : Marker) : (s.setMarker m).LaneLaw :=
  h.congr rfl rfl rfl rfl rfl

theorem LaneLaw.setLine {s : State} (h : s.LaneLaw) (l : Line) : (s.setLine l).LaneLaw := h.congr rfl rfl rfl rfl rfl

theorem LaneLaw.setPort {s : State} (h : s.LaneLaw) (p : Port) : (s.setPort p).LaneLaw := h.congr rfl rfl rfl rfl rfl

theorem LaneLaw.modifyFill {s : State} (h : s.LaneLaw) (f : Fill → Fill) : (s.modifyFill f).LaneLaw :=
  h.congr rfl rfl rfl rfl rfl

theorem LaneLaw.reply {s : State} (h : s.LaneLaw) (st : Status) (d : List Byte) : (s.reply st d).LaneLaw :=
  h.congr (by rw [reply_filler]) (by rw [reply_filler]) (by rw [reply_pins]) (by rw [reply_weigh]) (by rw [reply_books])

/-- A state with every gate closed, outside a fill. -/
theorem LaneLaw.resting {s : State} (gate : s.filler.gate = .closed) (step : s.filler.step.inFill = false)
    (req : s.pins.hold = true → s.weigh.request.any (fun q => q.who.ofLane) = false) : s.LaneLaw :=
  ⟨fun h => by rw [gate] at h; exact absurd h (by decide), req, fun h => by rw [step] at h; exact absurd h (by decide)⟩

/-- A state with every gate closed, in a fill in ONLINE. -/
theorem LaneLaw.filling {s : State} (gate : s.filler.gate = .closed) (station : s.books.station = .online)
    (req : s.pins.hold = true → s.weigh.request.any (fun q => q.who.ofLane) = false) : s.LaneLaw :=
  ⟨fun h => by rw [gate] at h; exact absurd h (by decide), req, fun _ => station⟩

/-! ### Settle requests -/

theorem withdrawLane_none (s : State) : s.withdrawLane.weigh.request.any (fun q => q.who.ofLane) = false := by
  unfold withdrawLane
  split
  · rfl
  · next h => simpa using h

theorem withdrawLane_filler (s : State) : s.withdrawLane.filler = s.filler := by unfold withdrawLane; split <;> rfl

theorem withdrawLane_pins (s : State) : s.withdrawLane.pins = s.pins := by unfold withdrawLane; split <;> rfl

theorem withdrawLane_books (s : State) : s.withdrawLane.books = s.books := by unfold withdrawLane; split <;> rfl

theorem askSettle_filler (s : State) (who : Requester) : (s.askSettle who).filler = s.filler := by
  unfold askSettle; split <;> rfl

theorem askSettle_books (s : State) (who : Requester) : (s.askSettle who).books = s.books := by
  unfold askSettle; split <;> rfl

theorem askSettle_pins (s : State) (who : Requester) : (s.askSettle who).pins = s.pins := by
  unfold askSettle; split <;> rfl

/-- Asking for a settle keeps the law, since nothing is placed under HOLD. -/
theorem askSettle_request (s : State) (who : Requester)
    (h : s.pins.hold = true → s.weigh.request.any (fun q => q.who.ofLane) = false) :
    (s.askSettle who).pins.hold = true → (s.askSettle who).weigh.request.any (fun q => q.who.ofLane) = false := by
  rw [askSettle_pins]
  intro hold
  unfold askSettle
  rw [if_pos hold]
  exact h hold

theorem LaneLaw.askSettle {s : State} (h : s.LaneLaw) (who : Requester) : (s.askSettle who).LaneLaw :=
  ⟨by rw [askSettle_filler, askSettle_pins]; exact h.gate, s.askSettle_request who h.request,
    by rw [askSettle_filler, askSettle_books]; exact h.fill⟩

/-- A fill that is cut: the gate closes, the lane's settle is withdrawn, and the actuals follow the step. -/
theorem cutFill_eq {s : State} {f : Fill} (h : s.filler.fill = some f) : s.cutFill = { s with
    weigh := s.withdrawLane.weigh,
    filler := { s.filler with gate := .closed, fill := some (f.cut s.filler.step) } } := by
  have lane : s.closeGate.withdrawLane = { s with
      weigh := s.withdrawLane.weigh, filler := { s.filler with gate := .closed } } := by
    unfold State.withdrawLane; split <;> split <;> first | rfl | contradiction
  simp [State.cutFill, lane, State.modifyFill, State.setFiller, h]

theorem LaneLaw.withdrawLane {s : State} (h : s.LaneLaw) : s.withdrawLane.LaneLaw :=
  ⟨by rw [withdrawLane_filler, withdrawLane_pins]; exact h.gate, fun _ => s.withdrawLane_none,
    by rw [withdrawLane_filler, withdrawLane_books]; exact h.fill⟩

theorem LaneLaw.withdrawRequest {s : State} (h : s.LaneLaw) : s.withdrawRequest.LaneLaw :=
  ⟨h.gate, fun _ => rfl, h.fill⟩

/-! ### Resting, clearing, rejection -/

theorem LaneLaw.goIdle {s : State} (h : s.pins.hold = true → s.weigh.request.any (fun q => q.who.ofLane) = false) :
    s.goIdle.LaneLaw := LaneLaw.resting rfl rfl h

theorem LaneLaw.enterClear {s : State}
    (h : s.pins.hold = true → s.weigh.request.any (fun q => q.who.ofLane) = false) : s.enterClear.LaneLaw := by
  have k : (s.toStep .clear).LaneLaw := LaneLaw.resting rfl rfl h
  unfold State.enterClear
  dsimp only
  split
  · exact k
  · split
    · exact LaneLaw.goIdle h
    · exact k.askSettle _

theorem queueReport_weigh (s : State) (f : Fill) : (s.queueReport f).weigh = s.weigh := by
  unfold queueReport; split <;> rfl

theorem queueReport_filler (s : State) (f : Fill) : (s.queueReport f).filler = s.filler := by
  unfold queueReport; split <;> rfl

theorem queueReport_pins (s : State) (f : Fill) : (s.queueReport f).pins = s.pins := by
  unfold queueReport; split <;> rfl

/-- Rejection needs nothing: it closes the gate, leaves the fill and withdraws the lane's request. -/
theorem LaneLaw.enterReject (s : State) (reason : RejectReason) : (s.enterReject reason).LaneLaw := by
  unfold State.enterReject
  dsimp only
  split
  · exact LaneLaw.resting rfl rfl (fun _ => s.withdrawLane_none)
  · refine LaneLaw.resting ?_ ?_ ?_
    · simp [queueReport_filler]
    · simp only [setFiller_filler, onBooks_filler, queueReport_filler, modifyFill_filler, toStep_filler]
      rfl
    · simp only [setFiller_weigh, onBooks_weigh, queueReport_weigh, modifyFill_weigh, toStep_weigh]
      exact fun _ => s.withdrawLane_none

theorem cutFill_none (s : State) : s.cutFill.weigh.request.any (fun q => q.who.ofLane) = false :=
  s.closeGate.withdrawLane_none

theorem endUndrawn_weigh (s : State) : s.endUndrawn.weigh = s.weigh := by unfold endUndrawn; split <;> rfl

theorem endUndrawn_pins (s : State) : s.endUndrawn.pins = s.pins := by unfold endUndrawn; split <;> rfl

theorem LaneLaw.abortFill (s : State) (reason : RejectReason) : (s.abortFill reason).LaneLaw := by
  unfold State.abortFill
  dsimp only
  split
  · exact LaneLaw.enterReject _ _
  · split
    · exact LaneLaw.goIdle (fun _ => by rw [endUndrawn_weigh]; exact s.cutFill_none)
    · exact LaneLaw.enterClear (fun _ => by rw [endUndrawn_weigh]; exact s.cutFill_none)

/-! ### Acceptance -/

theorem startMark_filler (s : State) (who : MarkFor) (n x : Nat) : (s.startMark who n x).filler = s.filler := by
  unfold startMark; split <;> rfl

theorem startMark_weigh (s : State) (who : MarkFor) (n x : Nat) : (s.startMark who n x).weigh = s.weigh := by
  unfold startMark; split <;> rfl

theorem startMark_pins (s : State) (who : MarkFor) (n x : Nat) : (s.startMark who n x).pins = s.pins := by
  unfold startMark; split <;> rfl

theorem startMark_books (s : State) (who : MarkFor) (n x : Nat) : (s.startMark who n x).books = s.books := by
  unfold startMark; split <;> rfl

theorem LaneLaw.startMark {s : State} (h : s.LaneLaw) (who : MarkFor) (n x : Nat) : (s.startMark who n x).LaneLaw :=
  h.congr (by rw [startMark_filler]) (by rw [startMark_filler]) (by rw [startMark_pins]) (by rw [startMark_weigh])
    (by rw [startMark_books])

theorem LaneLaw.afterAccept {s : State}
    (h : s.pins.hold = true → s.weigh.request.any (fun q => q.who.ofLane) = false) (n x : Nat) :
    (s.afterAccept n x).LaneLaw := by
  unfold State.afterAccept
  split
  · exact (LaneLaw.resting (s := s.toStep .mark) rfl rfl h).startMark _ _ _
  · exact LaneLaw.enterClear h

theorem LaneLaw.accept {s : State}
    (h : s.pins.hold = true → s.weigh.request.any (fun q => q.who.ofLane) = false) : s.accept.LaneLaw := by
  unfold State.accept
  dsimp only
  split
  · exact LaneLaw.resting rfl rfl h
  · split
    · exact LaneLaw.enterClear h
    · split
      · exact LaneLaw.enterClear h
      · split
        · exact LaneLaw.enterReject _ _
        · refine LaneLaw.afterAccept ?_ _ _
          exact h

/-! ### Feeding -/

/-- A gate set in a feeding step with HOLD inactive. -/
theorem LaneLaw.setGate {s : State} (h : s.LaneLaw) (hold : s.pins.hold = false) (step : s.filler.step.feeds = true)
    (k : Nat) (g : Gate) (isFine : Bool) (net : Int) : (s.setGate k g isFine net).LaneLaw :=
  ⟨fun _ => ⟨step, hold⟩, h.request, h.fill⟩

theorem LaneLaw.enterSettle {s : State} (online : s.books.station = .online)
    (h : s.pins.hold = true → s.weigh.request.any (fun q => q.who.ofLane) = false) (k : Nat) :
    (s.enterSettle k).LaneLaw := (LaneLaw.filling (s := s.toStep (.settle k)) rfl online h).askSettle _

theorem LaneLaw.feedGate {s : State} (h : s.LaneLaw) (hold : s.pins.hold = false) {k : Nat}
    (step : s.filler.step = .feed k) : (s.feedGate k).LaneLaw := by
  unfold State.feedGate
  split
  · split
    · exact LaneLaw.enterSettle (h.fill (by rw [step]; rfl)) h.request k
    · split
      · exact h.setGate hold (by rw [step]; rfl) _ _ _ _
      · exact h.setGate hold (by rw [step]; rfl) _ _ _ _
  · exact h

theorem no_request {s : State} (hold : s.pins.hold = false) :
    s.pins.hold = true → s.weigh.request.any (fun q => q.who.ofLane) = false := fun h => by
  rw [hold] at h; exact absurd h (by decide)

theorem LaneLaw.enterFeed {s : State} (online : s.books.station = .online) (hold : s.pins.hold = false) (k : Nat) :
    (s.enterFeed k).LaneLaw :=
  LaneLaw.feedGate ((LaneLaw.filling (s := s.toStep (.feed k)) rfl online (no_request hold)).modifyFill _) hold rfl

theorem LaneLaw.endTopup {s : State} (online : s.books.station = .online)
    (h : s.pins.hold = true → s.weigh.request.any (fun q => q.who.ofLane) = false) (how : TopupEnd) :
    (s.endTopup how).LaneLaw :=
  ((LaneLaw.filling (s := s.toStep .topup) rfl online h).modifyFill _).askSettle _

theorem LaneLaw.topupGate {s : State} (h : s.LaneLaw) (hold : s.pins.hold = false) (step : s.filler.step = .topup) :
    s.topupGate.LaneLaw := by
  unfold State.topupGate
  split
  · split
    · split
      · exact LaneLaw.endTopup (h.fill (by rw [step]; rfl)) h.request _
      · exact h.setGate hold (by rw [step]; rfl) _ _ _ _
    · exact h
  · exact h

theorem LaneLaw.enterTopup {s : State} (online : s.books.station = .online) (hold : s.pins.hold = false) (net : Int) :
    (s.enterTopup net).LaneLaw := by
  unfold State.enterTopup
  dsimp only
  split
  · exact LaneLaw.topupGate ((LaneLaw.filling (s := s.toStep .topup) rfl online (no_request hold)).modifyFill _) hold rfl
  · exact LaneLaw.enterReject _ _

theorem LaneLaw.check {s : State} (online : s.books.station = .online) (hold : s.pins.hold = false) (net : Int) :
    (s.check net).LaneLaw := by
  unfold State.check
  dsimp only
  split
  · exact (LaneLaw.filling (s := s.toStep .check) rfl online (no_request hold)).modifyFill _
  · split
    · exact LaneLaw.enterReject _ _
    · split
      · exact LaneLaw.accept (no_request hold)
      · split
        · exact LaneLaw.enterReject _ _
        · refine LaneLaw.enterTopup ?_ ?_ _
          · exact online
          · exact hold

theorem LaneLaw.enterTare {s : State} (online : s.books.station = .online)
    (h : s.pins.hold = true → s.weigh.request.any (fun q => q.who.ofLane) = false) : s.enterTare.LaneLaw :=
  (LaneLaw.filling (s := s.toStep .tare) rfl online h).askSettle _

theorem LaneLaw.tareSettled {s : State} (h : s.LaneLaw) (online : s.books.station = .online)
    (hold : s.pins.hold = false) (r : Reading) : (s.tareSettled r).LaneLaw := by
  unfold State.tareSettled
  split
  · exact h
  · split
    · exact LaneLaw.enterReject _ _
    · exact LaneLaw.enterFeed (s := s.modifyFill _) online hold 1

theorem LaneLaw.componentSettled {s : State} (h : s.LaneLaw) (online : s.books.station = .online)
    (hold : s.pins.hold = false) (k : Nat) (r : Reading) : (s.componentSettled k r).LaneLaw := by
  unfold State.componentSettled
  split
  · exact h
  · split
    · exact h
    · next f _ c _ =>
      have w := fun (g : Fill → Fill) n net => (s.flows_modifyFill g).trans (flows_adapt _ n c net)
      dsimp only
      split
      · exact LaneLaw.enterFeed ((w _ _ _).books.station.trans online)
          ((congrArg Pins.hold (w _ _ _).pins).trans hold) _
      · exact LaneLaw.check ((w _ _ _).books.station.trans online) ((congrArg Pins.hold (w _ _ _).pins).trans hold) _

theorem LaneLaw.topupSettled {s : State} (h : s.LaneLaw) (online : s.books.station = .online)
    (hold : s.pins.hold = false) (r : Reading) : (s.topupSettled r).LaneLaw := by
  unfold State.topupSettled
  split
  · exact h
  · exact LaneLaw.check (s := s.modifyFill _) online hold _

/-! ### Updates, CHEST and HOLD -/

theorem LaneLaw.followNet {s : State} (h : s.LaneLaw) : s.followNet.LaneLaw := by
  unfold State.followNet
  split
  · exact h.modifyFill _
  · exact h

theorem LaneLaw.closeGate {s : State} (h : s.LaneLaw) : s.closeGate.LaneLaw :=
  ⟨fun k => absurd (show false = true from k) (by decide), h.request, h.fill⟩

theorem LaneLaw.readingUpdate {s : State} (h : s.LaneLaw) : s.readingUpdate.LaneLaw := by
  unfold State.readingUpdate
  split
  · unfold State.validUpdate
    have k := h.followNet
    dsimp only
    split
    · exact k
    · next hold =>
      replace hold : s.followNet.pins.hold = false := by simpa using hold
      split
      · next hs =>
        split
        · exact LaneLaw.enterReject _ _
        · exact k.feedGate hold hs
      · next hs =>
        split
        · exact k
        · split
          · exact LaneLaw.enterReject _ _
          · exact k.topupGate hold hs
      all_goals exact k
  · exact h.closeGate

theorem LaneLaw.chestEdgeAt {s : State} (h : s.LaneLaw) (level : Bool) : (s.chestEdgeAt level).LaneLaw := by
  have k : (s.setFiller { s.filler with remembered := level }).LaneLaw := h.congr rfl rfl rfl rfl rfl
  unfold State.chestEdgeAt
  dsimp only
  split
  · unfold State.chestRises
    split
    · next hs => exact LaneLaw.enterTare (k.fill (by rw [hs]; rfl)) k.request
    · split
      · exact LaneLaw.goIdle (fun _ => rfl)
      · exact k
    all_goals exact k
  · unfold State.chestFalls
    split
    · exact LaneLaw.enterReject _ _
    · exact LaneLaw.enterReject _ _
    · exact LaneLaw.enterReject _ _
    · exact LaneLaw.enterReject _ _
    · exact LaneLaw.enterClear k.request
    all_goals exact k

theorem LaneLaw.restart {s : State} (h : s.LaneLaw) (hold : s.pins.hold = false) : s.restart.LaneLaw := by
  have k : ({ s with filler := { s.filler with flow := none } } : State).LaneLaw := h.congr rfl rfl rfl rfl rfl
  unfold State.restart
  split
  · exact h.askSettle _
  · exact h.askSettle _
  · next hs => exact k.feedGate hold hs
  · next hs =>
    split
    · exact h.askSettle _
    · exact (k.modifyFill _).topupGate hold hs
  · exact h.congr rfl rfl rfl rfl rfl
  · exact LaneLaw.enterClear h.request
  all_goals exact h

/-! ### Marks -/

theorem LaneLaw.endMark {s : State} (h : s.LaneLaw) (j : Job) : (s.endMark j).LaneLaw := by
  have k : ((s.setMarker s.marker.stop).onBooks (·.markDone j.invoice j.serial j.defect)).LaneLaw :=
    (h.setMarker _).onBooks (Books.kept_markDone _ _ _ _)
  unfold State.endMark
  dsimp only
  split
  · split
    · exact LaneLaw.enterClear k.request
    · exact k
  · exact k

theorem LaneLaw.pulse {s : State} (h : s.LaneLaw) (j : Job) : (s.pulse j).LaneLaw := by
  unfold State.pulse
  split
  · exact h
  · exact (h.setMarker _).onBooks (Books.kept_raiseFault _ rfl)
  · exact (h.setMarker _).onBooks (Books.kept_raiseFault _ rfl)
  · dsimp only
    split
    · exact (h.setMarker _).setMarker _
    · exact (h.setMarker _).endMark _

theorem LaneLaw.shiftDone {s : State} (h : s.LaneLaw) (hd : Head) (j : Job) (dataIn : BitVec 32) :
    (s.shiftDone hd j dataIn).LaneLaw := by
  have ends : ∀ {t : State}, t.LaneLaw → (t.shiftEnds hd).LaneLaw := by
    intro t k
    unfold State.shiftEnds
    split
    · exact k
    · dsimp only
      split
      · exact (k.setMarker _).setMarker _
      · split
        · exact (k.setMarker _).setMarker _
        · exact (k.setMarker _).endMark _
  unfold State.shiftDone
  split
  · refine ends ?_
    unfold State.nozzleCheck
    dsimp only
    split
    · exact (h.setMarker _).onBooks (Books.kept_raiseFault _ rfl)
    · exact (h.setMarker _).onBooks (Books.kept_clearCause _ _)
  · exact ends h

/-! ### Settles handed out, and no flow -/

theorem LaneLaw.completeSettle {s : State} (h : s.LaneLaw) : s.completeSettle.LaneLaw := by
  unfold State.completeSettle
  split
  · next q r hq hr =>
    have k : (s.withdrawRequest.onBooks (·.clearCause .settleSlow)).LaneLaw :=
      h.withdrawRequest.onBooks (Books.kept_clearCause _ _)
    unfold State.handSettled
    split
    · next hw =>
      have hold : s.pins.hold = false := by
        cases hs : s.pins.hold
        · rfl
        · have := h.request hs
          rw [hq] at this
          simp [hw, Requester.ofLane] at this
      unfold State.fillSettled
      split
      · next hs => exact k.tareSettled (k.fill (by rw [hs]; rfl)) hold r
      · next hs => exact k.componentSettled (k.fill (by rw [hs]; rfl)) hold _ r
      · next hs => exact k.topupSettled (k.fill (by rw [hs]; rfl)) hold r
      all_goals exact k
    · unfold State.captureSettled
      split
      · exact LaneLaw.goIdle (fun _ => rfl)
      · exact LaneLaw.goIdle (fun _ => rfl)
    · unfold State.zeroSettled
      split
      · refine LaneLaw.reply ?_ _ _
        exact k.congr rfl rfl rfl rfl rfl
      · exact LaneLaw.reply (k.onBooks (Books.kept_raiseFault _ rfl)) _ _
  · exact h

theorem LaneLaw.markShort {s : State} (h : s.LaneLaw) (k : Nat) : (s.markShort k).LaneLaw := by
  unfold State.markShort
  dsimp only
  split
  · exact (h.modifyFill _).onBooks (Books.kept_noFlowBin _ _)
  · exact h.modifyFill _

theorem markShort_step (s : State) (k : Nat) : (s.markShort k).filler.step = s.filler.step := by
  unfold markShort
  dsimp only
  split <;> rfl

theorem LaneLaw.findNoFlow {s : State} (h : s.LaneLaw) : s.findNoFlow.LaneLaw := by
  have c := h.closeGate
  unfold State.findNoFlow
  split
  · next k hs =>
    have m := c.markShort k
    have on := m.fill (by rw [markShort_step]; show s.filler.step.inFill = true; rw [hs]; rfl)
    exact LaneLaw.enterSettle on m.request k
  · next hs =>
    split
    · next k _ =>
      have m := c.markShort k
      have on := m.fill (by rw [markShort_step]; show s.filler.step.inFill = true; rw [hs]; rfl)
      exact LaneLaw.endTopup on m.request _
    · exact c
  all_goals exact c

theorem LaneLaw.armFill {s : State} (h : s.LaneLaw) (online : s.books.station = .online) (r : Invoice) (k : Nat) :
    (s.armFill r k).LaneLaw :=
  LaneLaw.filling rfl ((s.flows_armFill r k).books.station.trans online) h.request

theorem LaneLaw.holdBegins {s : State} (h : s.LaneLaw) : s.holdBegins.LaneLaw := by
  unfold State.holdBegins
  refine ⟨?_, fun _ => withdrawLane_none _, ?_⟩
  · rw [withdrawLane_filler]
    exact fun k => absurd (show false = true from k) (by decide)
  · rw [withdrawLane_filler, withdrawLane_books]
    exact h.fill

/-! ### HALT and OFFLINE -/

/-- Whatever the step, the entry to HALT leaves no fill and no open gate. -/
theorem LaneLaw.haltFill {s : State} (h : s.LaneLaw) (st : StationState) : (s.setStation st).haltFill.LaneLaw := by
  have rest : s.filler.step.inFill = false → (s.setStation st).LaneLaw := fun k =>
    ⟨h.gate, h.request, fun q => by
      rw [setStation_filler, k] at q; exact absurd q (by decide)⟩
  unfold State.haltFill
  split
  · exact LaneLaw.abortFill _ _
  · exact LaneLaw.abortFill _ _
  · exact LaneLaw.abortFill _ _
  · exact LaneLaw.abortFill _ _
  · exact LaneLaw.abortFill _ _
  · exact LaneLaw.abortFill _ _
  · next hs =>
    split
    · exact rest (by rw [show s.filler.step = .clear from hs]; rfl)
    · exact LaneLaw.goIdle (fun _ => withdrawLane_none _)
  · next hs => exact rest (by rw [show s.filler.step = .idle from hs]; rfl)
  · next hs => exact rest (by rw [show s.filler.step = .accept from hs]; rfl)
  · next hs => exact rest (by rw [show s.filler.step = .reject from hs]; rfl)
  · next hs => exact rest (by rw [show s.filler.step = .mark from hs]; rfl)

theorem LaneLaw.enterHalt {s : State} (h : s.LaneLaw) : s.enterHalt.LaneLaw := by
  have k := h.haltFill .halt
  have m : ((s.setStation .halt).haltFill.haltMark).LaneLaw := by
    unfold State.haltMark
    split
    · exact k
    · exact (k.setMarker _).endMark _
  unfold State.enterHalt
  exact (m.onBooks (Books.kept_removeClaims _ _)).withdrawLane

theorem LaneLaw.raiseHalting {s : State} (h : s.LaneLaw) (c : FaultCode) : (s.raiseHalting c).LaneLaw := by
  have k : (s.onBooks (·.raiseFault c)).LaneLaw := h.congr rfl rfl rfl rfl rfl
  unfold State.raiseHalting
  dsimp only
  split
  · exact k.enterHalt
  · exact k

/-- The Fill Sequencer's part of OFFLINE leaves it IDLE with every gate closed. -/
theorem offlineFill_filler (s : State) :
    s.offlineFill.filler.gate = .closed ∧ s.offlineFill.filler.step = .idle := by
  unfold offlineFill
  split
  · exact ⟨rfl, rfl⟩
  · split
    · dsimp only
      split <;> exact ⟨rfl, rfl⟩
    · exact ⟨rfl, rfl⟩

theorem offlineWeigh_filler (s : State) : s.offlineWeigh.filler = s.filler := by
  unfold offlineWeigh
  split
  · rw [reply_filler]; rfl
  · rfl

theorem offlineWeigh_request (s : State) : s.offlineWeigh.weigh.request = none := by
  unfold offlineWeigh
  split
  · rw [reply_weigh]; rfl
  · rfl

theorem LaneLaw.raiseOffline {s : State} (h : s.LaneLaw) (c : FaultCode) : (s.raiseOffline c).LaneLaw := by
  unfold State.raiseOffline
  dsimp only
  split
  · exact h.congr rfl rfl rfl rfl rfl
  · refine LaneLaw.resting ?_ ?_ ?_
    · rw [offlineWeigh_filler]; exact (offlineFill_filler _).1
    · rw [offlineWeigh_filler]
      show (State.offlineFill _).filler.step.inFill = false
      rw [(offlineFill_filler _).2]
      rfl
    · rw [offlineWeigh_request]; exact fun _ => rfl

theorem LaneLaw.raiseSaturation {s : State} (h : s.LaneLaw) : s.raiseSaturation.LaneLaw := by
  unfold State.raiseSaturation
  split
  · refine LaneLaw.raiseHalting ?_ _
    exact h.congr rfl rfl rfl rfl rfl
  · exact h

end State

end Sys2Proof.Machine
end

