-- ==== Sys2Proof/Laws/Line.lean ====
section
/-! SUPPORT. What the samples of the line do to its runs, whether the line stays BUSY through them, and the line
that the end of a frame leaves (R2, R8, R16, R18, R20). -/

namespace Sys2Proof.Machine

/-- The line stays BUSY through two stretches only if it does through the first. -/
theorem keepsBusy_of_append (xs ys : List Bool) (r d : Nat) (h : keepsBusy r d (xs ++ ys) = true) :
    keepsBusy r d xs = true := by
  induction xs generalizing r d with
  | nil => rfl
  | cons x xs ih =>
    cases x <;> simp only [List.cons_append, keepsBusy, Bool.and_eq_true] at h ⊢ <;> exact ⟨h.1, ih _ _ h.2⟩

/-- A stretch at the end keeps the line BUSY from some runs, if the whole does. -/
theorem keepsBusy_append_right (xs ys : List Bool) (r d : Nat) (h : keepsBusy r d (xs ++ ys) = true) :
    ∃ r' d', keepsBusy r' d' ys = true := by
  induction xs generalizing r d with
  | nil => exact ⟨r, d, h⟩
  | cons x xs ih =>
    cases x <;> simp only [List.cons_append, keepsBusy, Bool.and_eq_true] at h <;> exact ih _ _ h.2

/-- A recessive stretch that reaches 176 samples makes the line IDLE, and a dominant one that reaches 384 HELD. -/
theorem keepsBusy_replicate (n r d : Nat) :
    (keepsBusy r d (List.replicate n true) = true → 0 < n → r + n < 176)
    ∧ (keepsBusy r d (List.replicate n false) = true → 0 < n → d + n < 384) := by
  induction n generalizing r d with
  | zero => simp
  | succ n ih =>
    simp only [List.replicate_succ, keepsBusy, Bool.and_eq_true, decide_eq_true_eq]
    refine ⟨fun h _ => ?_, fun h _ => ?_⟩
    · rcases Nat.eq_zero_or_pos n with rfl | hn
      · omega
      · have := (ih (r + 1) 0).1 h.2 hn; omega
    · rcases Nat.eq_zero_or_pos n with rfl | hn
      · omega
      · have := (ih 0 (d + 1)).2 h.2 hn; omega

/-- Samples that hold an idle gap, or a held line, give a receiver no character. -/
theorem assembled_gap (pre gap post : List Bool)
    (h : gap = List.replicate 176 true ∨ gap = List.replicate 384 false) : assembled (pre ++ gap ++ post) = [] := by
  have no : keepsBusy 0 0 (pre ++ gap ++ post) ≠ true := by
    intro k
    obtain ⟨r, d, k'⟩ := keepsBusy_append_right pre gap 0 0 (keepsBusy_of_append _ post 0 0 k)
    rcases h with rfl | rfl
    · have := (keepsBusy_replicate 176 r d).1 k' (by decide); omega
    · have := (keepsBusy_replicate 384 r d).2 k' (by decide); omega
  rw [assembled, if_neg no]

/-- `n` samples of one level: its run grows by `n` and the other is over. -/
theorem keepsBusy_run (n r d : Nat) (l : List Bool) :
    (r + (n + 1) ≤ 175 → keepsBusy r d (List.replicate (n + 1) true ++ l) = keepsBusy (r + (n + 1)) 0 l)
    ∧ (d + (n + 1) ≤ 383 → keepsBusy r d (List.replicate (n + 1) false ++ l) = keepsBusy 0 (d + (n + 1)) l) := by
  induction n generalizing r d with
  | zero =>
    refine ⟨fun h => ?_, fun h => ?_⟩ <;>
      simp only [List.replicate_succ, List.replicate_zero, List.cons_append, List.nil_append, keepsBusy,
        Bool.and_eq_right_iff_imp, decide_eq_true_eq] <;> omega
  | succ n ih =>
    refine ⟨fun h => ?_, fun h => ?_⟩ <;>
      rw [List.replicate_succ, List.cons_append, keepsBusy]
    · rw [(ih (r + 1) 0).1 (by omega), decide_eq_true (by omega)]
      simp [Nat.add_comm, Nat.add_left_comm]
    · rw [(ih 0 (d + 1)).2 (by omega), decide_eq_true (by omega)]
      simp [Nat.add_comm, Nat.add_left_comm]

/-- Bits driven whole lengthen a run by sixteen samples each at most. -/
theorem keepsBusy_driven (bits l : List Bool) (r d : Nat) (hr : r + 16 * bits.length ≤ 175)
    (hd : d + 16 * bits.length ≤ 383) :
    ∃ r' d', r' ≤ r + 16 * bits.length ∧ d' ≤ d + 16 * bits.length
      ∧ keepsBusy r d (drivenSamples bits ++ l) = keepsBusy r' d' l := by
  induction bits generalizing r d with
  | nil => exact ⟨r, d, by simp, by simp, rfl⟩
  | cons b bs ih =>
    simp only [List.length_cons] at hr hd
    have e : drivenSamples (b :: bs) ++ l = List.replicate 16 b ++ (drivenSamples bs ++ l) := by
      simp [drivenSamples, List.flatMap_cons]
    rw [e, List.length_cons]
    cases b
    · rw [(keepsBusy_run 15 r d _).2 (by omega)]
      obtain ⟨r', d', h₁, h₂, h₃⟩ := ih 0 (d + 16) (by omega) (by omega)
      exact ⟨r', d', by omega, by omega, h₃⟩
    · rw [(keepsBusy_run 15 r d _).1 (by omega)]
      obtain ⟨r', d', h₁, h₂, h₃⟩ := ih (r + 16) 0 (by omega) (by omega)
      exact ⟨r', d', by omega, by omega, h₃⟩

/-- The line stays BUSY through framed characters, back to back (R8). -/
theorem keepsBusy_chars (cs : List RxChar) (hs : ∀ c ∈ cs, c.stop = true) (r : Nat) (hr : r ≤ 160) :
    keepsBusy r 0 (drivenSamples (cs.flatMap RxChar.bits)) = true := by
  induction cs generalizing r with
  | nil => rfl
  | cons c cs ih =>
    obtain ⟨body, hb, hl⟩ : ∃ body : List Bool, RxChar.bits c = false :: body ++ [true] ∧ body.length = 9 :=
      ⟨[0, 1, 2, 3, 4, 5, 6, 7].map (fun i => c.data.getLsbD i) ++ [c.mark], by
        simp [RxChar.bits, hs c (by simp)], by simp⟩
    have e : drivenSamples ((c :: cs).flatMap RxChar.bits)
        = List.replicate 16 false ++ (drivenSamples body ++ (List.replicate 16 true
          ++ drivenSamples (cs.flatMap RxChar.bits))) := by
      simp [List.flatMap_cons, hb, drivenSamples, List.append_assoc]
    rw [e, (keepsBusy_run 15 r 0 _).2 (by omega)]
    obtain ⟨r', d', h₁, h₂, h₃⟩ := keepsBusy_driven body _ 0 (0 + (15 + 1)) (by omega) (by omega)
    rw [h₃, (keepsBusy_run 15 r' d' _).1 (by omega)]
    exact ih (fun x hx => hs x (by simp [hx])) _ (by omega)

/-- A frame on a sound line never shows the idle gap, nor a held line (R8). -/
theorem keepsBusy_frame (sender : Nat) (f : Frame) : keepsBusy 0 0 (frameSamples sender f) = true := by
  refine keepsBusy_chars _ ?_ 0 (by omega)
  suffices h : ∀ (bs : List Byte) (i : Nat), ∀ c ∈ withMarks i bs, c.stop = true from h _ _
  intro bs
  induction bs with
  | nil => simp [withMarks]
  | cons b bs ih => intro i c hc; simp only [withMarks, List.mem_cons] at hc; rcases hc with rfl | hc <;> [rfl; exact ih _ _ hc]

/-- While no tick past 10 has come, a receiver in check of a start bit stays so, each sample one tick on (R3). -/
theorem Receiver.take_ticks (r : Receiver) (t : Nat) (hr : r.tick = some t) (hc : r.counting = false) (xs : List Bool)
    (h : t + xs.length ≤ 10) :
    (r.take xs).tick = some (t + xs.length) ∧ (r.take xs).counting = false := by
  induction xs using List.reverseRecOn with
  | nil => exact ⟨hr, hc⟩
  | append_singleton xs x ih =>
    simp only [List.length_append, List.length_singleton] at h
    obtain ⟨h₁, h₂⟩ := ih (by omega)
    have e : r.take (xs ++ [x]) = (r.take xs).sample x := by simp [Receiver.take, List.foldl_append]
    have n₁ : ¬ t + xs.length = 10 := by omega
    have n₂ : ¬ t + xs.length = 170 := by omega
    have n₃ : ¬ t + xs.length = 175 := by omega
    simp [e, Receiver.sample, Receiver.inChar, h₁, h₂, n₁, n₂, n₃, Nat.add_assoc]

/-- In IDLE a stretch of samples begins a frame, or moves the runs and the candidate alone. -/
theorem Line.seek_cases (l : Line) (samples : List Bool) (live : Bool) :
    l.seek samples live = (l.pass samples).begun live
      ∨ ∃ c, l.seek samples live = { l.pass samples with candidate := c } := by
  unfold Line.seek
  dsimp only
  split
  · exact Or.inl rfl
  · exact Or.inr ⟨_, rfl⟩

theorem trailing_append_singleton (v x : Bool) (l : List Bool) :
    trailing v (l ++ [x]) = if x = v then trailing v l + 1 else 0 := by
  unfold trailing; simp [List.takeWhile_cons]; split <;> simp_all

/-- A stretch of samples moves the two runs and nothing else: each run is what the samples end with, joined to the run
before when they are all of its level. -/
theorem Line.pass_eq (l : Line) (samples : List Bool) : l.pass samples = { l with
    recessiveRun := trailing true samples + if ∀ x ∈ samples, x = true then l.recessiveRun else 0,
    dominantRun := trailing false samples + if ∀ x ∈ samples, x = false then l.dominantRun else 0 } := by
  induction samples using List.reverseRecOn with
  | nil => simp [Line.pass, trailing]
  | append_singleton s x ih =>
    have step : l.pass (s ++ [x]) = (l.pass s).sample x := by simp [Line.pass, List.foldl_append]
    rw [step, ih, trailing_append_singleton, trailing_append_singleton]
    cases x <;> simp [Line.sample] <;> omega

theorem bothSlots_driveSlot (x : SlotSamples) (k : Slot) : bothSlots (driveSlot x k) = slotSamples x k := by
  cases k <;> simp [bothSlots, driveSlot, slotSamples, samplesOf]

/-- A frame given up after these samples of it. -/
theorem State.pass_frameOver (s : State) (heard : List Bool) (k : Slot) :
    (s.line.restart.pass heard).frameOver k = s.lineAfter heard k := by
  simp [Line.frameOver, Line.pass_eq, Line.restart, State.lineAfter]

/-- A frame followed to the end of its slots. -/
theorem State.frameEnds_eq (s : State) (heard : List Bool) (x : SlotSamples) (k : Slot) :
    s.line.frameEnds heard x k = s.lineAfter (heard ++ slotSamples x k) k := by
  simp [Line.frameEnds, bothSlots_driveSlot, State.pass_frameOver]

/-- A frame followed to the end of its slots, from the stop bit of C2 on. -/
theorem State.frameEnds_stop (s : State) (x : SlotSamples) (k : Slot) :
    s.line.frameEnds stopSamples x k = s.lineOver x k := State.frameEnds_eq s stopSamples x k

end Sys2Proof.Machine
end

