-- ==== Sys2Proof/WellFormed.lean ====
section
/-! DEFINITION. Which commands can come to the block at all: the bounds of R172 on a transaction, of R6 on a
frame, and of R2 to R5 on positions and samples within it. -/

namespace Sys2Proof

/-- The codes of the command layout table (12, Layouts). -/
def commandCodes : List Byte :=
  [0x01, 0x02, 0x10, 0x11, 0x12, 0x13, 0x20, 0x21, 0x22, 0x23, 0x24, 0x30, 0x31, 0x32, 0x33,
   0x40, 0x41, 0x42, 0x43, 0x44, 0x45, 0x46, 0x47, 0x7F]

/-- A length byte is 0 to 60 (R172). -/
def paramsOk (params : Params) : Bool := params.stated.length ≤ 60

/-- The well-formed commands. -/
def Instr.wf : Instr → Bool
  | .configure p | .goOnline p | .openInvoice p | .abandonInvoice p | .closeInvoice p | .releaseInvoice p
  | .startChest p | .abortChest p | .voidChest p | .recordSample p | .remark p | .binFill p | .binEmpty p
  | .binWithdraw p | .zeroScale p | .readInvoice p | .readChest p | .readBin p | .readLotSheet p
  | .readNotice p | .readFault p | .ackFault p | .readStatus p | .resetStation p => paramsOk p
  | .unknownCommand code p => paramsOk p && !commandCodes.contains code && code != 0xFF
  | .commandDiscarded bytes midByte => midByte || !bytes.isEmpty
  | .readResponse clocked => 1 ≤ clocked
  | .responseReady | .reset | .resetEnd _ _ | .lineIdle | .lineHeld | .beginFrame => true
  | .arbitrationLost char bit | .lineDrive char bit => 1 ≤ char && char ≤ 27 && 1 ≤ bit.place && bit.place ≤ 11
  | .frameLost samples => 171 ≤ samples.length && samples.head? == some false
  | .frameFiltered samples => 4 * 171 ≤ samples.length && samples.head? == some false
  | .frameNaked samples => 7 * 171 ≤ samples.body.length && samples.body.head? == some false
  | .attemptEnd _ _ => true
  | .closeCallFrame .. | .closedFrame .. | .tallyFrame .. | .claimFrame .. => true
  | .chestFrame _ _ _ _ _ _ _ draws => 1 ≤ draws.length && draws.length ≤ 4
  | .voidFrame .. | .sampleFrame .. | .markFrame .. | .binFrame .. | .censusFrame .. => true
  | .censusWindowEnd _ | .closeWindowEnd _ | .extensionEnd _ => true
  | .sampleWord edges => !edges.isEmpty
  | .goodSample | .sampleLoss | .settleComplete | .settleSlow | .zeroScaleTimeout | .noFlow
  | .rejectPulseEnd => true
  | .chestEdge _ | .holdActive | .holdEnd | .encoderPulse | .shiftDone _ | .firingPulseEnd => true
  | .startConfirmed samples => !samples.isEmpty

end Sys2Proof
end

