-- ==== Sys2Proof/Tests/Slice0.lean ====
section
/-! SUPPORT. Tests: ill-formed commands refused, commands on small states, and for every statement with hypotheses a
witness, a concrete state and operands that meet them, clause by clause. -/

namespace Sys2Proof.Tests

set_option Elab.async false

open Sys2Proof Sys2Proof.Machine

/-! ### Small states -/

/-- The state after a command. -/
def after (c : Instr) (s : State) : State :=
  match exec c s with
  | .next t => t
  | .fault f => nomatch f
  | .refused _ => s

/-- An ACTIVE invoice of 12 chests, 3 and 4 free. -/
def invoice7 : Invoice where
  number := 7
  mark := [0x41, 0x42]
  grade := [0x4F, 0x50]
  planned := 12
  ceiling := 12
  target := 5000
  tolerance := 20
  tareMin := 100
  tareMax := 900
  recipe := [⟨1, 600⟩, ⟨2, 400⟩]
  shareTolerance := 30
  state := .active
  role := none
  view := .whole
  participants := [1, 3]
  high := 4
  free := [3, 4]
  full := false
  phase := .none
  recount := false
  tallies := []
  sent := none
  surrendered := 0

/-- This station's record 7/1. -/
def own1 : Chest :=
  { invoice := 7, key := .packed 1, station := 1, origin := .own, gross := 530, tare := 30, net := 500, sample := none,
    offBlend := false, mark := .pending, draws := [⟨1, 300⟩, ⟨2, 200⟩], conflict := none }

/-- The record 7/2 heard from station 3. -/
def heard2 : Chest := { own1 with key := .packed 2, station := 3, origin := .heard, mark := .good }

/-- An orphan of invoice 7. -/
def orphan5 : Chest := { own1 with key := .orphan 5, mark := .none }

/-- A scale with a zero of 0 and 10 counts to the weigh unit. -/
def scale0 : Scale := { window := 4, c10 := 10000, zero := 0, capacity := 20000, motion := 10, settle := 500 }

/-- Station 1 ONLINE at 9,000 ms, with invoice 7, its two records, an idle line and a valid reading of 0. -/
def shed : State where
  pending := []
  inReset := false
  pins := { hold := false, chest := false }
  books := { Books.reset with
    time := 9000, station := .online, settings := some ⟨4, 100⟩,
    feeders := #v[some ⟨1, 200, 50⟩, some ⟨2, 200, 50⟩, none, none],
    invoices := [invoice7], chests := [own1, heard2] }
  line := { Line.reset with level := .idle, recessiveRun := 176 }
  weigh := { Weigh.reset with
    scale := some scale0, window := List.replicate 4 ⟨0, false⟩, lastGood := some 8990, reading := some ⟨0, 0, false⟩,
    steady := true }
  filler := { Filler.reset with inflight := #v[50, 50, 0, 0] }
  marker := Marker.reset
  port := Port.reset
  spare := 0

/-- The tables of `shed` changed. -/
def shedWith (f : Books → Books) : State := { shed with books := f shed.books }

/-- `shed` with invoice 7's record changed. -/
def shed7 (f : Invoice → Invoice) : State := shedWith (fun b => { b with invoices := [f invoice7] })

/-- `shed` with the given Transmit Queue. -/
def shedTx (l : List TxEntry) : State := shedWith (fun b => { b with tx := l })

/-- Component 1 of the chest in progress. -/
def comp1 : CompState :=
  { feeder := 1, target := 3000, cumulative := 3000, coarseCut := some 2800, fineCut := some 2950, settled := none,
    actual := 0, short := false, opened := false, fine := false }

/-- Component 2 of the chest in progress. -/
def comp2 : CompState :=
  { comp1 with feeder := 2, target := 2000, cumulative := 5000, coarseCut := none, fineCut := none }

/-- The chest in progress, tared at 300. -/
def fill7 : Fill where
  invoice := 7
  freed := false
  reservation := 1
  target := 5000
  tolerance := 20
  tareMin := 100
  tareMax := 900
  recipe := [⟨1, 600⟩, ⟨2, 400⟩]
  shareTolerance := 30
  comps := [comp1, comp2]
  tare := some 300
  lastNet := some 0
  topupDone := false
  topupComp := none
  netBefore := none
  topupEnd := none
  net := none
  serial := none
  reason := none

/-- The lane at a step with `f` in progress, the chest on the scale and a reading of weight `w`. -/
def laneAt (step : FillStep) (f : Fill) (w : Int) : State :=
  { shed with
    pins := { hold := false, chest := true },
    books := { shed.books with reservation := some 1, reservationCounter := 1 },
    filler := { shed.filler with step := step, fill := some f, remembered := true },
    weigh := { shed.weigh with reading := some ⟨w * 10, w, false⟩ } }

/-- A mark job of two columns left. -/
def job7 : Job where
  invoice := 7
  serial := 1
  requester := .remark
  line1 := [0x41]
  line2 := [0x42]
  markLength := 10
  positions := 22
  position := 1
  late := 0
  usedRows := 1
  ready := none
  defect := false

/-- The head marking, at a chain state. -/
def marking (c : Chain) (j : Job) : State :=
  { shed with marker := { Marker.reset with head := some ⟨true, false⟩, chain := c, job := some j, path := 5 } }

/-- A waiting entry. -/
def waiting (f : Frame) : TxEntry := TxEntry.fresh f

/-- An entry whose attempt is under way. -/
def sendingEntry (f : Frame) : TxEntry := { TxEntry.fresh f with underWay := true }

/-- `shed` while it sends the frame. -/
def senderOfFrame (f : Frame) : State :=
  { shedTx [sendingEntry f] with line := { shed.line with level := .busy, role := .sender } }

/-- `shed` while it follows another station's frame in full. -/
def listening : State := { shed with line := { shed.line with
      level := .busy, role := .receiver true, assembler := { Assembler.empty with bits := [false] } } }

/-- `listening` with the tables changed. -/
def listeningWith (f : Books → Books) : State := { listening with books := f listening.books }

/-- Both slots recessive. -/
def quiet : SlotSamples := ⟨0xFFFF, 0xFFFF⟩

/-- The sender of a frame heard, with slots that nobody else drives. -/
def from_ (n : Byte) : Sender := ⟨n, quiet⟩

/-- The samples of characters on a sound line. -/
def onLine (cs : List RxChar) : List Bool := drivenSamples (cs.flatMap RxChar.bits)

/-- A character on a sound line, header form. -/
def head (b : Byte) : RxChar := ⟨b, true, true⟩

/-- The state once H1 to H4 of the characters have been kept (R15). -/
def pastH4 (cs : List RxChar) (s : State) : State :=
  { s with line := { s.line with assembler :=
      { chars := (cs.take 4).map (·.data), bits := [], expected := some cs.length, error := false } } }

/-- `listening` once H1 to H4 of the characters have been kept. -/
def passedHeader (cs : List RxChar) : State := pastH4 cs listening

/-- The state once H1 to H4 of the frame that a row carries have been kept. -/
def pastHeaderOf (c : Instr) (s : State) : State :=
  match heardOf c with
  | some (q, f) => pastH4 (frameChars q.number.toNat f) s
  | none => s

/-- A whole frame heard, its H4 first. -/
def hear (c : Instr) (s : State) : State := after c (pastHeaderOf c s)

/-! ### Ill-formed commands are refused -/

theorem test_wf_params_beyond_60 : Instr.wf (.configure ⟨List.replicate 61 0, []⟩) = false := by decide
theorem test_wf_params_60 : Instr.wf (.configure ⟨List.replicate 60 0, [1]⟩) = true := by decide
theorem test_wf_unknown_code_of_the_table : Instr.wf (.unknownCommand 0x45 ⟨[], []⟩) = false := by decide
theorem test_wf_unknown_code_of_the_read : Instr.wf (.unknownCommand 0xFF ⟨[], []⟩) = false := by decide
theorem test_wf_discarded_without_a_byte : Instr.wf (.commandDiscarded [] false) = false := by decide
theorem test_wf_read_without_a_byte : Instr.wf (.readResponse 0) = false := by decide
theorem test_wf_arbitration_character_0 : Instr.wf (.arbitrationLost 0 ⟨1, 0⟩) = false := by decide
theorem test_wf_arbitration_character_28 : Instr.wf (.arbitrationLost 28 ⟨1, 0⟩) = false := by decide
theorem test_wf_arbitration_bit_0 : Instr.wf (.arbitrationLost 1 ⟨0, 0⟩) = false := by decide
theorem test_wf_arbitration_bit_12 : Instr.wf (.arbitrationLost 1 ⟨12, 0⟩) = false := by decide
theorem test_wf_lost_without_a_character : Instr.wf (.frameLost (List.replicate 170 false)) = false := by decide +kernel
theorem test_wf_lost_without_a_start : Instr.wf (.frameLost (List.replicate 171 true)) = false := by decide +kernel
theorem test_wf_filtered_below_4 : Instr.wf (.frameFiltered (List.replicate 683 false)) = false := by decide +kernel
theorem test_wf_naked_below_7 : Instr.wf (.frameNaked ⟨List.replicate 1196 false, quiet⟩) = false := by decide +kernel
theorem test_wf_start_without_a_sample : Instr.wf (.startConfirmed []) = false := by decide
theorem test_wf_chest_without_a_draw : Instr.wf (.chestFrame (from_ 3) 7 1 0 0 0 0 []) = false := by decide
theorem test_wf_chest_of_five_draws :
    Instr.wf (.chestFrame (from_ 3) 7 1 0 0 0 0 (List.replicate 5 (1, 0))) = false := by decide
theorem test_wf_word_without_an_edge : Instr.wf (.sampleWord []) = false := by decide

/-! ### The manual's own figures -/

/-- The Shed Line, first example: the data bits of H1 for kinds 4 and 6, and the bits at which stations 2, 4 and 9
part. -/
theorem test_h1_bits_of_claim_and_chest :
    (RxChar.bits (head (mirror 4))).take 9 = [false, false, false, false, false, false, true, false, false]
    ∧ (RxChar.bits (head (mirror 6))).take 9 = [false, false, false, false, false, false, true, true, false]
    ∧ (RxChar.bits (head (mirror 4)))[5]? = (RxChar.bits (head (mirror 9)))[4]? := by decide +kernel

/-- A CLAIM is 9 characters (99 bit times before the slots), a one-draw CHEST 18, a four-draw CHEST 27. -/
theorem test_frame_lengths :
    (frameChars 4 (.claim 1234 40 13 4)).length = 9
    ∧ (frameChars 2 (.chest 1234 ⟨7, 552, 51, 501, 0, [⟨11, 251⟩]⟩)).length = 18
    ∧ (frameChars 2 (.chest 1234 ⟨7, 552, 51, 501, 0, [⟨11, 251⟩, ⟨12, 0⟩, ⟨13, 0⟩, ⟨14, 0⟩]⟩)).length = 27 := by
  decide +kernel

/-- The Shed Line, second example: a framing error in the draw count loses framing; one character later it is NAKed. -/
theorem test_framing_error_before_and_after_the_length :
    let cs := frameChars 11 (.chest 1234 ⟨7, 552, 51, 501, 0, [⟨11, 251⟩, ⟨12, 0⟩, ⟨13, 0⟩, ⟨14, 0⟩]⟩)
    judge (fun _ => true) ((cs.take 13).modify 12 (fun c => { c with stop := false })) = .lost
    ∧ judge (fun _ => true) (cs.modify 13 (fun c => { c with stop := false })) = .naked := by decide +kernel

/-- Bins and Recipes, first example: 317 less 102 goes LOW with BIN_LOW; 14 less 98 overdraws by 84. -/
theorem test_draws_of_bin_14 :
    let b : Books := { Books.reset with settings := some ⟨4, 300⟩ }
    (b.setBin 14 ⟨.stocked, some 2231, some 418, 0⟩).draw ⟨14, 101⟩ = b.setBin 14 ⟨.stocked, some 2231, some 317, 0⟩
    ∧ ((b.setBin 14 ⟨.stocked, some 2231, some 317, 0⟩).draw ⟨14, 102⟩).bin 14 = ⟨.low, some 2231, some 215, 0⟩
    ∧ ((b.setBin 14 ⟨.stocked, some 2231, some 317, 0⟩).draw ⟨14, 102⟩).notices = [⟨.binLow, 0, none, none, some 14⟩]
    ∧ ((b.setBin 14 ⟨.low, some 2231, some 14, 0⟩).draw ⟨14, 98⟩).bin 14 = ⟨.low, some 2231, some 0, 84⟩
    ∧ ((b.setBin 14 ⟨.low, some 2231, some 14, 0⟩).draw ⟨14, 98⟩).faults = [⟨.binOverdraw, 1, .cleared, 0, 0⟩]
    ∧ (b.setBin 14 ⟨.low, some 2231, some 0, 84⟩).binCheck 14 1000 = some .binShort
    ∧ ((b.setBin 14 ⟨.low, some 2231, some 0, 84⟩).binAction 14 1 2240 800).bin 14 = ⟨.stocked, some 2240, some 800, 84⟩ := by
  decide +kernel

/-- The Weigh Channel, first example: the conversion of a window to a reading. -/
theorem test_reading_of_a_window :
    ({ scale0 with zero := 120400, c10 := 163840, capacity := 6000 } : Scale).readingOf
      [⟨1058120, false⟩, ⟨1058125, false⟩, ⟨1058124, false⟩, ⟨1058122, false⟩] = some ⟨1058123, 5723, false⟩ := by
  decide +kernel

/-- Chest Fill Sequence, both examples: the targets, the cutoffs' feeders' adaptations. -/
theorem test_targets_and_adaptation :
    targets 5000 [⟨11, 500⟩, ⟨12, 300⟩, ⟨14, 200⟩] = [2500, 1500, 1000]
    ∧ adapted 40 12 = 43 ∧ adapted 35 (-9) = 33 ∧ adapted 50 6 = 52 ∧ adapted 43 6 = 45 ∧ adapted 52 (-70) = 34 := by
  decide +kernel

/-- The recipe of invoice 2207 with given actuals. -/
def fill2207 (a b c : Int) : Fill :=
  { fill7 with
    recipe := [⟨11, 500⟩, ⟨12, 300⟩, ⟨14, 200⟩], shareTolerance := 20,
    comps := [{ comp1 with actual := a }, { comp1 with actual := b }, { comp1 with actual := c }] }

/-- Chest Fill Sequence, both examples: the draws, OFF_BLEND and the document weights at ACCEPT. -/
theorem test_acceptance_arithmetic :
    (fill2207 2512 1479 1015).draws = [⟨11, 251⟩, ⟨12, 148⟩, ⟨14, 102⟩]
    ∧ (fill2207 2512 1479 1015).offBlend 5006 = false ∧ docGross 512 5006 = 552 ∧ docTare 512 = 51
    ∧ (fill2207 2572 181 2243).draws = [⟨11, 257⟩, ⟨12, 18⟩, ⟨14, 224⟩]
    ∧ (fill2207 2572 181 2243).offBlend 4996 = true ∧ docGross 498 4996 = 549 ∧ docTare 498 = 50
    ∧ (fill2207 2506 181 1413).draws = [⟨11, 251⟩, ⟨12, 18⟩, ⟨14, 141⟩] := by decide +kernel

/-- Chest Marking: the lines of R127's table, and the first example's mark of 238 positions on 28 rows. -/
theorem test_mark_lines :
    line2Of 1234 7 501 552 = "1234-07 N50.1 G55.2".toList.map (fun c => BitVec.ofNat 8 c.toNat)
    ∧ line2Of 88 40 995 1046 = "0088-40 N99.5 G104.6".toList.map (fun c => BitVec.ofNat 8 c.toNat)
    ∧ line2Of 2207 3 1053 1150 = "2207-03 N105.3 G115.".toList.map (fun c => BitVec.ofNat 8 c.toNat)
    ∧ (newJob .fill 2207 15 ("GLENFORD BOP".toList.map (fun c => BitVec.ofNat 8 c.toNat))
        (line2Of 2207 15 501 552)).markLength = 226
    ∧ (newJob .fill 2207 15 ("GLENFORD BOP".toList.map (fun c => BitVec.ofNat 8 c.toNat))
        (line2Of 2207 15 501 552)).positions = 238
    ∧ (newJob .fill 2207 15 ("GLENFORD BOP".toList.map (fun c => BitVec.ofNat 8 c.toNat))
        (line2Of 2207 15 501 552)).usedRows = 0xFFFC3FFF := by decide +kernel

/-- The glyph K, column by column, on line 1. -/
theorem test_glyph_columns :
    nozzleSet (markDot [0x4B] [] 1) = 0x3FFF ∧ nozzleSet (markDot [0x4B] [] 2) = 0x3FFF
    ∧ nozzleSet (markDot [0x4B] [] 3) = 0x00C0 ∧ nozzleSet (markDot [0x4B] [] 9) = 0x3003
    ∧ nozzleSet (markDot [0x4B] [] 11) = 0 := by decide +kernel

/-- Chest Records, the example: a VOID from another station changes nothing, one from the packing station removes the
record; a CHEST from another station marks the conflict, and its VOID unmarks it. -/
theorem test_one_serial_heard_four_ways :
    (hear (.voidFrame (from_ 4) 7 2) listening).books.chests = [own1, heard2]
    ∧ (hear (.voidFrame (from_ 3) 7 2) listening).books.chests = [own1]
    ∧ (after (.chestFrame (from_ 4) 7 2 530 30 500 0 [(1, 0)]) listening).books.chests = [own1, { heard2 with conflict := some 4 }]
    ∧ (hear (.voidFrame (from_ 4) 7 2) (listeningWith (fun b => { b with chests := [{ heard2 with conflict := some 4 }] }))).books.chests
      = [heard2] := by decide +kernel

/-- Chest Records, the example: a CHEST of other content from the same station takes the record's place. -/
theorem test_chest_heard_anew :
    (after (.chestFrame (from_ 3) 7 2 548 49 499 0 [(1, 499)]) listening).books.chests
      = [own1, { heard2 with gross := 548, tare := 49, net := 499, mark := .pending, draws := [⟨1, 499⟩] }] := by
  decide +kernel

/-- Chest Serials, the first example: the claims of block sizes 6 and 8 under a ceiling of 20 at high mark 10. -/
theorem test_claim_sizes :
    (((shed7 (fun r => { r with free := [], high := 10, ceiling := 20 })).books.claimCheck 7).tx
      = [waiting (.claim 7 12 11 4)])
    ∧ ((({ (shed7 (fun r => { r with free := [], high := 18, ceiling := 20 })).books with
        settings := some ⟨8, 100⟩ } : Books).claimCheck 7).tx = [waiting (.claim 7 12 19 2)])
    ∧ (((shed7 (fun r => { r with free := [], high := 20, ceiling := 20 })).books.claimCheck 7).notices
      = [⟨.serialsExhausted, 9000, some 7, none, none⟩]) := by decide +kernel

/-- Chest Serials, the second example: a CLOSE CALL during a fill keeps the lowest serial and surrenders the rest. -/
theorem test_close_meets_a_fill :
    let s : State := { laneAt (.feed 1) fill7 1000 with line := listening.line }
    let t := hear (.closeCallFrame (from_ 3) 7 1 2 12) { s with books := (shed7 (fun r => { r with free := [14, 15, 16] })).books }
    (t.books.invoice? 7).map (fun r => (r.state, r.role, r.free, r.surrendered))
      = some (.closing, some .peer, [14], 2)
    ∧ t.books.tx = [waiting (.tally 7 ⟨2, 12, 4, 1, 2, 1, 500⟩)]
    ∧ t.books.notices = [⟨.closeCalled, 9000, some 7, none, some 2⟩] := by decide +kernel

/-- Invoice Table, the example: another plan lowers the ceiling at ACTIVE holders, each raising PLAN_MISMATCH and
answering. -/
theorem test_late_opener_heard :
    let t := hear (.censusFrame (from_ 8) 7 10) listening
    (t.books.invoice? 7).map (fun r => (r.ceiling, r.planned, r.participants)) = some (10, 12, [1, 3])
    ∧ t.books.faults = [⟨.planMismatch, 1, .cleared, 9000, 9000⟩]
    ∧ t.books.tx = [waiting (.tally 7 ⟨1, 12, 4, 1, 2, 0, 500⟩)] := by decide +kernel

/-- The Transmit Queue, second example: a repeated CHEST lowers its bin once. -/
theorem test_repeated_chest_draws_once :
    let s := listeningWith (fun b => b.setBin 11 ⟨.stocked, some 1, some 4000, 0⟩)
    let t := after (.chestFrame (from_ 2) 7 8 552 51 501 0 [(11, 251)]) s
    (t.books.bin 11).remaining = some 3749 ∧ t.books.repeat? 2 = some ⟨7, ⟨8, 552, 51, 501, 0, [⟨11, 251⟩]⟩⟩
    ∧ ((after (.chestFrame (from_ 2) 7 8 552 51 501 0 [(11, 251)]) { t with line := listening.line }).books.bin 11).remaining
      = some 3749 := by decide +kernel

/-- Faults, the example: ACK FAULT of a standing cause, of another code, and of the last severe fault. -/
theorem test_ack_fault_in_halt :
    let s : State := shedWith (fun b => { b with
      station := .halt, faults := [⟨.sampleLoss, 1, .present, 0, 0⟩, ⟨.settleSlow, 1, .cleared, 0, 0⟩] })
    let c : State := shedWith (fun b => { b with station := .halt, faults := [⟨.sampleLoss, 1, .cleared, 0, 0⟩] })
    (after (.ackFault ⟨[4], []⟩) s).port.reply = some ⟨0x46, .causePresent, [4]⟩
    ∧ (after (.ackFault ⟨[23], []⟩) s).port.reply = some ⟨0x46, .ok, [4]⟩
    ∧ (after (.ackFault ⟨[4], []⟩) c).port.reply = some ⟨0x46, .ok, [3]⟩
    ∧ (after (.ackFault ⟨[4], []⟩) c).books.station = .online := by decide +kernel

/-! ### Witnesses: the machine as a whole and the command port -/

theorem test_witness_StepRunsTheFrontCommand :
    ({ shed with pending := [.lineHeld, .lineIdle] } : State).pending = .lineHeld :: [.lineIdle] := by decide

theorem test_witness_EmptyQueueLetsTimePass :
    (shed.pending = [] ∧ ({ shed with port := { Port.reset with busy := true, reply := some ⟨0x40, .ok, []⟩ } } : State).dueNow
      = some .responseReady)
    ∧ ({ shed with inReset := true } : State).pending = [] ∧ ({ shed with inReset := true } : State).inReset = true
    ∧ (shed.pending = [] ∧ shed.inReset = false ∧ shed.dueNow = none) := by decide +kernel

/-- Moments that have come, each at its boundary and 1 ms before: the good sample, sample loss, no flow, the census window. -/
theorem test_due_moments :
    let held (t : Time) : State := { shed with weigh := { shed.weigh with holding := some ⟨0, t⟩ } }
    let last (t : Time) : State := { shed with weigh := { shed.weigh with lastGood := some t } }
    let flow (k : Nat) : State := { shed with filler := { shed.filler with gate := .fine 1, flow := some ⟨0, k⟩ } }
    let window (t : Time) : State := shed7 (fun r => { r with phase := .window t })
    (held 8999).dueNow = some .goodSample ∧ (held 9000).dueNow = none
    ∧ (last 8950).dueNow = some .sampleLoss ∧ (last 8951).dueNow = none
    ∧ (flow 1500).dueNow = some .noFlow ∧ (flow 1499).dueNow = none
    ∧ (window 9000).dueNow = some (.censusWindowEnd 7) ∧ (window 9001).dueNow = none
    ∧ ({ flow 1500 with weigh := (held 8999).weigh } : State).dueNow = some .goodSample := by decide +kernel

theorem test_witness_RefusedCommandsChangeOnlyThePort :
    ((Instr.ackFault, (0x46 : Byte)) ∈ hostRows.drop 21 ∧ State.reset.portFree
      ∧ refusalOf 0x46 [4].length State.reset.books.station = some .wrongState)
    ∧ (refusalOf 0x46 ([] : List Byte).length shed.books.station = some .range)
    ∧ (layoutLength 0x03 = none ∧ (0x03 : Byte) ≠ 0xFF ∧ shed.portFree) := by
  refine ⟨⟨?_, by decide +kernel⟩, by decide +kernel⟩
  simp [hostRows]

theorem test_witness_DiscardedTransactionsChangeNothing :
    ({ shed with port := { Port.reset with busy := true } } : State).port.busy = true
    ∧ (layoutLength 0x50 = none ∧ (0x50 : Byte) ≠ 0xFF)
    ∧ (([2, 0] : List Byte).length < 1 + byteAt [2, 0] 0) ∧ ([] : List Byte).length = 0 := by decide +kernel

theorem test_witness_ResponsesAreBufferedAndRead :
    let r : Response := ⟨0x41, .ok, [1, 2]⟩
    (let s : State := { shed with port := { Port.reset with ready := true, buffer := some r } };
      s.port.busy = false ∧ s.port.buffer = some r)
    ∧ (shed.port.busy = false ∧ shed.port.buffer = none)
    ∧ (let s : State := { shed with port := { Port.reset with busy := true, reply := some r } };
      s.port.busy = true ∧ s.port.reply = some r) := by decide

/-- A response that has been made is ready once a moment 1 ms on has come, and not yet at a moment of the same ms. -/
theorem test_response_within_1_ms :
    let made : Port := { Port.reset with busy := true, command := some 0x41, reply := some ⟨0x41, .ok, [1]⟩ }
    let at_ (t : Time) : State := { shed with port := made, weigh := { shed.weigh with holding := some ⟨0, t⟩ } }
    (after .goodSample (at_ 8999)).port = made ∧ (after .goodSample (at_ 9000)).port.busy = false
    ∧ (after .goodSample (at_ 9000)).port.ready = true
    ∧ (after .goodSample (at_ 9000)).port.buffer = some ⟨0x41, .ok, [1]⟩ := by decide +kernel

theorem test_witness_ResetEmptiesEveryBlock : shed.portFree ∧ State.reset.portFree := by decide

/-- A discarded and a whole READ RESPONSE, at the byte counts where the response ends. -/
theorem test_response_bytes :
    let s : State := { shed with port := { Port.reset with ready := true, buffer := some ⟨0x33, .busy, [7]⟩ } }
    (after (.readResponse 1) s).port.miso = [2] ∧ (after (.readResponse 5) s).port.miso = [2, 0x33, 1, 1, 7]
    ∧ (after (.readResponse 5) s).port.ready = true
    ∧ (after (.readResponse 4) shed).port.miso = [0, 0, 1, 0] := by decide +kernel

/-- A whole transaction of two bytes too many for its length byte is answered as one of the wrong length. -/
theorem test_discarded_bytes :
    (after (.commandDiscarded [0x44] false) shed) = { shed with port := { Port.reset with miso := [0] } }
    ∧ (after (.commandDiscarded [0x40, 2, 0] false) shed) = { shed with port := { Port.reset with miso := [0, 0, 0] } } := by
  decide +kernel

/-! ### Witnesses: reset and configuration -/

/-- A lawful CONFIGURE at its bounds: block size 8, threshold 5,000, W 16, C10 2,000,000, bins 64 and 1 on two feeders. -/
def config : List Byte :=
  [8, 0x13, 0x88, 16, 0x1E, 0x84, 0x80, 0xFF, 0xFF, 0xF6, 0x75, 0x30, 50, 0x07, 0xD0, 7,
   64, 0x03, 0xE8, 0x01, 0x2C, 0, 0, 0, 0, 0, 1, 0, 0, 0, 0, 0, 0, 0, 0, 0]

theorem test_witness_ConfigureGivesEveryOwnerItsValues :
    State.reset.admits 0x01 ⟨config, []⟩ ∧ configLawful config ∧ byteAt config (16 + 5 * 1) = 0 ∧ byteAt config 16 = 64
    ∧ byteAt config 15 % 2 = 1
    ∧ configLawful (config.set 15 0) ∧ byteAt (config.set 15 0) 15 % 2 = 0
    ∧ ¬ configLawful (config.set 0 9) ∧ ¬ configLawful (config.set 0 0) ∧ ¬ configLawful (config.set 2 0x89)
    ∧ ¬ configLawful (config.set 14 0xD1) ∧ ¬ configLawful (config.set 26 64) ∧ ¬ configLawful (config.set 15 8) := by
  unfold configLawful; and_intros <;> decide +kernel

/-- CONFIGURE: the zero is signed, and the two feeders serve their bins. -/
theorem test_configure :
    let t := after (.configure ⟨config, []⟩) State.reset
    t.books.station = .configured ∧ (t.weigh.scale.map (·.zero)) = some (-10) ∧ t.books.feederOf 64 = 1
    ∧ t.books.feederOf 1 = 3 ∧ t.books.feederOf 2 = 0 ∧ t.inflight 1 = 300 ∧ t.marker.latch = BitVec.allOnes 32 := by
  decide +kernel

/-- `shed` CONFIGURED with the line at a level. -/
def configured (l : LineLevel) : State :=
  { shedWith (fun b => { b with station := .configured }) with line := { shed.line with level := l } }

theorem test_witness_ResetEndReadsTheStraps : exec .reset shed = .next (after .reset shed) := by rfl

theorem test_witness_GoOnlineAtAnIdleLine :
    (let s : State := { configured .busy with books := { (configured .busy).books with onlineWait := true } };
      s.admits 0x02 ⟨[], []⟩ ∧ s.books.onlineWait = true)
    ∧ ((configured .held).admits 0x02 ⟨[], []⟩ ∧ (configured .held).books.onlineWait = false
      ∧ (configured .held).line.level ≠ .idle)
    ∧ ((configured .idle).admits 0x02 ⟨[], []⟩ ∧ (configured .idle).books.onlineWait = false
      ∧ (configured .idle).line.level = .idle ∧ (configured .idle).weigh.lossFound = false
      ∧ (configured .idle).saturationDue = false)
    ∧ (let s : State := { configured .idle with weigh := { shed.weigh with lossFound := true } };
      s.admits 0x02 ⟨[], []⟩ ∧ s.books.onlineWait = false ∧ s.line.level = .idle ∧ s.weigh.lossFound = true) := by decide +kernel

/-- GO ONLINE waits for the line, which is met at IDLE. -/
theorem test_go_online_then_idle :
    let t := after (.goOnline ⟨[], []⟩) (configured .busy)
    t.books.onlineWait = true ∧ (after .lineIdle t).books.station = .online
    ∧ (after .lineIdle t).books.notices = [⟨.online, 9000, none, none, none⟩] := by decide +kernel

/-! ### Witnesses: invoice commands -/

/-- OPEN INVOICE 9999 with a recipe of bins 1 and 2. -/
def opening : List Byte :=
  [0x27, 0x0F, 2, 0x41, 0x42, 0, 0, 0, 0, 0, 0, 1, 0x4F, 0, 0, 0, 0, 0, 99, 0x13, 0x88, 20, 0, 100, 0x05, 0xDC, 2,
   1, 0x02, 0x58, 2, 0x01, 0x90, 0, 0, 0, 0, 0, 0, 200]

theorem test_witness_OpenInvoiceMakesARecord :
    shed.admits 0x10 ⟨opening, []⟩ ∧ openLawful opening
    ∧ (∀ c ∈ textAt opening 8 2 ++ textAt opening 6 11, isGlyph c = true)
    ∧ (∀ k ∈ recipeAt opening, shed.books.feederOf k.bin ≠ 0) ∧ shed.books.hasInvoice (num2 opening 0) = false
    ∧ shed.books.invoices.length < 6
    ∧ ¬ openLawful (opening.set 0 0x28) ∧ ¬ openLawful (opening.set 18 0) ∧ ¬ openLawful (opening.set 18 100)
    ∧ ¬ openLawful (opening.set 39 201) ∧ ¬ openLawful (opening.set 30 1)
    ∧ (openLawful (opening.set 3 0x61) ∧ ∃ c ∈ textAt (opening.set 3 0x61) 8 2, isGlyph c = false)
    ∧ (openLawful (opening.set 30 3) ∧ ∃ k ∈ recipeAt (opening.set 30 3), shed.books.feederOf k.bin = 0)
    ∧ (shedWith (fun b => { b with invoices := [{ invoice7 with number := 9999 }] })).books.hasInvoice 9999 = true
    ∧ 6 ≤ (shedWith (fun b => { b with
        invoices := ([1, 2, 3, 4, 5, 6] : List Nat).map (fun n => { invoice7 with number := n }) })).books.invoices.length := by
  unfold openLawful; and_intros <;> decide +kernel

/-- OPEN INVOICE: the record and its CENSUS. -/
theorem test_open_invoice :
    let t := after (.openInvoice ⟨opening, []⟩) shed
    (t.books.invoice? 9999).map (fun r => (r.mark, r.grade, r.planned, r.tareMax, r.shareTolerance, r.state))
      = some ([0x41, 0x42], [0x4F], 99, 1500, 200, .census)
    ∧ t.books.tx = [waiting (.census 9999 99)] ∧ t.books.invoices.map (·.number) = [7, 9999] := by decide +kernel

/-- The parameters of a command about invoice 7. -/
def inv7 : List Byte := [0, 7]

theorem test_witness_AbandonAndReleaseFreeTheRecord :
    (shed.admits 0x11 ⟨[0, 8], []⟩ ∧ (∀ r ∈ shed.books.invoice? 8, r.state = .closed))
    ∧ ((shed7 (fun r => { r with state := .closed })).admits 0x11 ⟨inv7, []⟩
      ∧ ∀ r ∈ (shed7 (fun r => { r with state := .closed })).books.invoice? 7, r.state = .closed)
    ∧ (let s := laneAt (.feed 1) fill7 0;
      s.admits 0x11 ⟨inv7, []⟩ ∧ (∃ r ∈ s.books.invoice? 7, r.state ≠ .closed) ∧ s.filler.step ≠ .idle
        ∧ ∃ f ∈ s.filler.fill, f.invoice = 7 ∧ f.freed = false)
    ∧ (let s := marking .wait job7;
      s.admits 0x11 ⟨inv7, []⟩ ∧ ∃ j ∈ s.marker.job, j.requester = .remark ∧ j.invoice = 7)
    ∧ (shed.admits 0x11 ⟨inv7, []⟩ ∧ (∃ r ∈ shed.books.invoice? 7, r.state ≠ .closed)
      ∧ (∀ f ∈ shed.filler.fill, f.invoice = 7 → f.freed = false → shed.filler.step = .idle)
      ∧ (∀ j ∈ shed.marker.job, j.requester = .remark → j.invoice ≠ 7))
    ∧ (shed.admits 0x13 ⟨inv7, []⟩ ∧ ∃ r ∈ shed.books.invoice? 7, r.state ≠ .closed)
    ∧ ((shed7 (fun r => { r with state := .closed })).admits 0x13 ⟨inv7, []⟩
      ∧ ∃ r ∈ (shed7 (fun r => { r with state := .closed })).books.invoice? 7, r.state = .closed) := by decide +kernel

/-- ABANDON INVOICE takes the queued CENSUS and leaves the MARK. -/
theorem test_abandon :
    let t := after (.abandonInvoice ⟨inv7, []⟩) (shedTx [waiting (.census 7 12), waiting (.mark 7 1 2)])
    t.books.tx = [waiting (.mark 7 1 2)] ∧ t.books.invoices = [] ∧ t.books.chests = [] := by decide +kernel

theorem test_witness_CloseInvoiceQueuesTheCall :
    (shed.admits 0x12 ⟨[0, 8], []⟩ ∧ shed.books.invoice? 8 = none)
    ∧ ((shed7 (fun r => { r with view := .short })).admits 0x12 ⟨inv7, []⟩
      ∧ ∃ r ∈ (shed7 (fun r => { r with view := .short })).books.invoice? 7, r.state = .active ∧ r.view = .short)
    ∧ ((laneAt .armed fill7 0).admits 0x12 ⟨inv7, []⟩ ∧ (laneAt .armed fill7 0).filling = some 7
      ∧ ∃ r ∈ (laneAt .armed fill7 0).books.invoice? 7, r.state = .active ∧ r.view = .whole)
    ∧ (∃ e ∈ (shedTx [waiting (.closeCall 7 1 2 12)]).books.tx, e.frame.kind = 1 ∧ e.frame.invoice = 7)
    ∧ (shed.admits 0x12 ⟨inv7, []⟩ ∧ (∃ r ∈ shed.books.invoice? 7, r.state = .active ∧ r.view = .whole)
      ∧ shed.filling ≠ some 7 ∧ (∀ e ∈ shed.books.tx, e.frame.kind = 1 → e.frame.invoice ≠ 7)) := by decide +kernel

/-- CLOSE INVOICE: the call carries the packed count. -/
theorem test_close_invoice :
    (after (.closeInvoice ⟨inv7, []⟩) shed).books.tx = [waiting (.closeCall 7 1 2 12)]
    ∧ (after (.closeInvoice ⟨inv7, []⟩) shed).books.invoices = [invoice7] := by decide +kernel

/-- RELEASE INVOICE frees the record with its chests. -/
theorem test_release :
    (after (.releaseInvoice ⟨inv7, []⟩) (shed7 (fun r => { r with state := .closed }))).books.chests = [] := by decide +kernel

/-- A fill whose CLOSED invoice is released runs on without its record; the number, opened again, is free to be abandoned. -/
theorem test_release_in_a_fill :
    let closed : State := { laneAt (.feed 1) fill7 0 with
      books := { (laneAt (.feed 1) fill7 0).books with invoices := [{ invoice7 with state := .closed }] } }
    let t := after (.releaseInvoice ⟨inv7, []⟩) closed
    let again : State := { t with port := Port.reset, books := { t.books with invoices := [invoice7] } }
    t.filler.step = .feed 1 ∧ t.filler.fill = some { fill7 with freed := true } ∧ t.books.reservation = some 1
    ∧ again.filling = none ∧ closed.filling = some 7
    ∧ (after (.abandonInvoice ⟨inv7, []⟩) again).port.reply = some ⟨0x11, .ok, []⟩
    ∧ (after (.releaseInvoice ⟨inv7, []⟩) { closed with filler := { closed.filler with
        fill := some { fill7 with invoice := 8 } } }).filler.fill = some { fill7 with invoice := 8 } := by decide +kernel

/-! ### Witnesses: chest commands -/

/-- `shed` with bins 1 and 2 at the given records. -/
def bins (x y : Bin) : State := shedWith (fun b => (b.setBin 1 x).setBin 2 y)

/-- A STOCKED bin. -/
def stocked (q : Nat) : Bin := ⟨.stocked, some 1, some q, 0⟩

theorem test_witness_StartChestArmsTheLane :
    ((laneAt .clear fill7 0).admits 0x20 ⟨inv7, []⟩ ∧ (laneAt .clear fill7 0).filler.step ≠ .idle)
    ∧ ((marking .wait job7).admits 0x20 ⟨inv7, []⟩ ∧ ∃ j ∈ (marking .wait job7).marker.job, j.requester = .remark)
    ∧ (shed.filler.step = .idle ∧ shed.marker.job = none ∧ shed.admits 0x20 ⟨[0, 8], []⟩ ∧ shed.books.invoice? 8 = none)
    ∧ (let s := shed7 (fun r => { r with full := true });
      s.admits 0x20 ⟨inv7, []⟩ ∧ ∃ r ∈ s.books.invoice? 7, r.state = .active ∧ r.full = true)
    ∧ (let s := shedWith (fun b => { b with chests := List.replicate 256 own1 });
      s.admits 0x20 ⟨inv7, []⟩ ∧ s.books.reservable = none ∧ ∃ r ∈ s.books.invoice? 7, r.state = .active ∧ r.full = false)
    ∧ (let s : State := { shed with weigh := Weigh.reset };
      s.admits 0x20 ⟨inv7, []⟩ ∧ s.books.reservable = some 1 ∧ s.weigh.reading = none)
    ∧ (let s := bins (stocked 300) (stocked 199);
      s.admits 0x20 ⟨inv7, []⟩ ∧ s.weigh.reading ≠ none
        ∧ invoice7.recipe.zip (targets 5000 invoice7.recipe) = [(⟨1, 600⟩, 3000)] ++ (⟨2, 400⟩, 2000) :: []
        ∧ s.books.binCheck 1 3000 = none ∧ s.books.binCheck 2 2000 = some .binShort)
    ∧ (let s := bins (stocked 300) (stocked 200);
      s.admits 0x20 ⟨inv7, []⟩ ∧ (∀ d ∈ invoice7.recipe.zip (targets 5000 invoice7.recipe), s.books.binCheck d.1.bin d.2 = none)
        ∧ s.books.reservable = some 1) := by decide +kernel

/-- START CHEST: ARMED with the reservation and the targets. -/
theorem test_start_chest :
    let t := after (.startChest ⟨inv7, []⟩) shed
    t.filler.step = .armed ∧ t.books.reservation = some 1 ∧ t.port.reply = some ⟨0x20, .ok, [1]⟩
    ∧ (t.filler.fill.map (fun f => f.comps.map (fun c => (c.feeder, c.target, c.cumulative))))
      = some [(1, 3000, 3000), (2, 2000, 5000)]
    ∧ (after (.startChest ⟨inv7, []⟩) (bins (stocked 300) (stocked 199))).port.reply = some ⟨0x20, .binShort, [2]⟩ := by
  decide +kernel

theorem test_witness_ReservationsBinAndClaimChecks :
    (shedWith (fun b => { b with chests := List.replicate 256 own1 })).books.freeSlots = 0
    ∧ (shed.books.reservable = some 1 ∧ 1 ≤ shed.books.freeSlots ∧ shed.books.reservationCounter < 255
      ∧ (∀ c ∈ shed.books.chests, c.key ≠ .orphan (shed.books.reservationCounter + 1)))
    ∧ (let b : Books := { shed.books with reservationCounter := 255 };
      1 ≤ b.freeSlots ∧ b.reservationCounter = 255 ∧ (∀ c ∈ b.chests, c.key ≠ .orphan 1))
    ∧ (let b := (bins ⟨.empty, some 1, some 0, 0⟩ ⟨.withdrawn, some 1, some 9, 0⟩).books;
      (b.bin 1).state = .empty ∧ (b.bin 2).state = .withdrawn ∧ (b.bin 3).state = .unknown)
    ∧ (let b := (bins (stocked 300) ⟨.low, some 1, some 9, 0⟩).books;
      (b.bin 1).state = .stocked ∧ (b.bin 1).remaining = some 300 ∧ (b.bin 2).state = .low)
    ∧ (shed.books.invoice? 7 = some invoice7 ∧ invoice7.free ≠ [] ∧ shed.books.invoice? 8 = none)
    ∧ (let b := (shed7 (fun r => { r with free := [] })).books;
      (∃ r ∈ b.invoice? 7, r.free = [] ∧ r.state = .active ∧ r.high < r.ceiling)
        ∧ (∀ e ∈ b.tx, e.frame.kind = 4 → e.frame.invoice ≠ 7) ∧ b.station = .online)
    ∧ (∃ r ∈ (shed7 (fun r => { r with free := [], high := 12 })).books.invoice? 7, r.free = [] ∧ r.ceiling ≤ r.high) := by
  decide +kernel

/-- A reservation number held by an orphan is passed over. -/
theorem test_reservation_passes_an_orphan :
    ({ shed.books with reservationCounter := 4, chests := [orphan5] } : Books).reservable = some 6 := by decide +kernel

/-- The chest in progress with component 1 opened. -/
def opened7 : Fill := { fill7 with comps := [{ comp1 with opened := true }, comp2], lastNet := some 1000 }

theorem test_witness_AbortChestEndsTheFill :
    (shed.admits 0x21 ⟨[], []⟩ ∧ shed.filler.step ∈ ([.idle, .check, .accept, .reject, .mark, .clear] : List FillStep))
    ∧ (let s := laneAt (.feed 1) opened7 1300;
      s.admits 0x21 ⟨[], []⟩ ∧ s.filler.fill = some opened7 ∧ (∃ c ∈ opened7.comps, c.opened = true)
        ∧ s.filler.step ∉ ([.idle, .check, .accept, .reject, .mark, .clear] : List FillStep))
    ∧ (let s := laneAt .armed fill7 0;
      s.admits 0x21 ⟨[], []⟩ ∧ s.filler.fill = some fill7 ∧ (∀ c ∈ fill7.comps, c.opened = false) ∧ s.filler.step = .armed)
    ∧ (let s := laneAt .tare fill7 0;
      s.admits 0x21 ⟨[], []⟩ ∧ s.filler.fill = some fill7 ∧ s.filler.step ≠ .armed
        ∧ s.filler.step ∉ ([.idle, .check, .accept, .reject, .mark, .clear] : List FillStep)) := by decide +kernel

/-- ABORT CHEST: a drawn chest is rejected with its draws reported. -/
theorem test_abort_chest :
    let t := after (.abortChest ⟨[], []⟩) (laneAt (.feed 1) opened7 1300)
    t.filler.step = .reject ∧ t.books.reservation = none
    ∧ t.books.tx = [waiting (.chest 7 ⟨0, 0, 0, 0, 0, [⟨1, 100⟩, ⟨2, 0⟩]⟩)]
    ∧ t.books.notices = [⟨.chestRejected, 9000, some 7, none, some 5⟩] := by decide +kernel

theorem test_witness_LaneCutsRejectsAndClears :
    (laneAt (.feed 1) fill7 0).filler.fill = some fill7
    ∧ (fill7.comps[1 - 1]? = some comp1 ∧ fill7.comps[2 - 1]? = some comp2)
    ∧ ({ fill7 with topupComp := some 2 } : Fill).topupComp = some 2
    ∧ (laneAt .clear fill7 0).pins.chest = true
    ∧ (shed.pins.chest = false ∧ shed.books.station ≠ .halt ∧ shed.pins.hold = false)
    ∧ (let s := shedWith (fun b => { b with station := .halt }); s.pins.chest = false ∧ s.books.station = .halt)
    ∧ (let s : State := { shed with pins := ⟨true, false⟩ };
      s.pins.chest = false ∧ s.books.station ≠ .halt ∧ s.pins.hold = true) := by decide +kernel

theorem test_witness_VoidChestAndRecordSample :
    (shed.admits 0x22 ⟨[0, 8, 1], []⟩ ∧ shed.books.invoice? 8 = none)
    ∧ (shed.admits 0x22 ⟨[0, 7, 9], []⟩ ∧ shed.books.chest? 7 9 = none)
    ∧ (shed.admits 0x22 ⟨[0, 7, 2], []⟩ ∧ shed.books.invoice? 7 = some invoice7 ∧ shed.books.chest? 7 2 = some heard2
      ∧ heard2.origin = .heard)
    ∧ (let s := shed7 (fun r => { r with free := List.range' 2 16 });
      s.admits 0x22 ⟨[0, 7, 1], []⟩ ∧ (∃ c ∈ s.books.chest? 7 1, c.origin = .own)
        ∧ ∃ r ∈ s.books.invoice? 7, r.state = .active ∧ 1 ≤ r.ceiling ∧ 16 ≤ r.free.length)
    ∧ (shed.admits 0x22 ⟨[0, 7, 1], []⟩ ∧ shed.books.chest? 7 1 = some own1 ∧ own1.origin = .own ∧ invoice7.free.length < 16)
    ∧ (let s := shed7 (fun r => { r with ceiling := 0, free := List.range' 2 16 });
      s.admits 0x22 ⟨[0, 7, 1], []⟩ ∧ ∃ r ∈ s.books.invoice? 7, r.ceiling < 1)
    ∧ (shed.admits 0x23 ⟨[0, 7, 1, 0], []⟩ ∧ shed.admits 0x23 ⟨[0, 7, 1, 51], []⟩ ∧ byteAt [0, 7, 1, 51] 3 = 51)
    ∧ (shed.admits 0x23 ⟨[0, 8, 1, 1], []⟩ ∧ shed.admits 0x23 ⟨[0, 7, 9, 50], []⟩ ∧ shed.books.chest? 7 9 = none)
    ∧ (let s := shedWith (fun b => { b with chests := [{ own1 with sample := some 3 }] });
      s.admits 0x23 ⟨[0, 7, 1, 1], []⟩ ∧ ∃ c ∈ s.books.chest? 7 1, c.sample ≠ none)
    ∧ (let s := shedWith (fun b => { b with chests := [{ own1 with net := 49 }] });
      s.admits 0x23 ⟨[0, 7, 1, 50], []⟩ ∧ ∃ c ∈ s.books.chest? 7 1, c.sample = none ∧ c.net < 50)
    ∧ (shed.admits 0x23 ⟨[0, 7, 1, 50], []⟩ ∧ own1.sample = none ∧ 50 ≤ own1.net) := by decide +kernel

/-- VOID CHEST: the record goes, the serial returns to the list, and a VOID is queued. -/
theorem test_void_chest :
    let t := after (.voidChest ⟨[0, 7, 1], []⟩) shed
    t.books.chests = [heard2] ∧ (t.books.invoice? 7).map (·.free) = some [1, 3, 4]
    ∧ t.books.tx = [waiting (.void 7 1)] := by decide +kernel

/-- RECORD SAMPLE: the weight in the record, and a SAMPLE frame. -/
theorem test_record_sample :
    let t := after (.recordSample ⟨[0, 7, 2, 50], []⟩) shed
    t.books.chests = [own1, { heard2 with sample := some 50 }] ∧ t.books.tx = [waiting (.sample 7 2 50)] := by
  decide +kernel

/-- `shed` with a head. -/
def headed : State := { shed with marker := { Marker.reset with head := some ⟨false, false⟩ } }

theorem test_witness_RemarkStartsAMark :
    (shed.admits 0x24 ⟨[0, 7, 1], []⟩ ∧ shed.marker.head = none)
    ∧ ((marking .wait job7).admits 0x24 ⟨[0, 7, 1], []⟩ ∧ (marking .wait job7).marker.chain ≠ .headIdle
      ∧ (marking .wait job7).marker.head ≠ none)
    ∧ (headed.admits 0x24 ⟨[0, 7, 9], []⟩ ∧ headed.marker.head ≠ none ∧ headed.filler.step = .idle
      ∧ headed.marker.chain = .headIdle ∧ headed.pins.chest = false ∧ headed.books.chest? 7 9 = none)
    ∧ (headed.admits 0x24 ⟨[0, 7, 2], []⟩ ∧ headed.books.chest? 7 2 = some heard2 ∧ heard2.origin = .heard)
    ∧ (let s : State := { headed with books := { headed.books with chests := [{ own1 with mark := .good }] } };
      s.admits 0x24 ⟨[0, 7, 1], []⟩ ∧ ∃ c ∈ s.books.chest? 7 1, c.origin = .own ∧ c.mark = .good)
    ∧ (headed.admits 0x24 ⟨[0, 7, 1], []⟩ ∧ headed.books.chest? 7 1 = some own1 ∧ own1.origin = .own ∧ own1.mark = .pending
      ∧ headed.books.invoice? 7 = some invoice7) := by decide +kernel

/-- REMARK: the job, and the outfeed running. -/
theorem test_remark :
    let t := after (.remark ⟨[0, 7, 1], []⟩) headed
    t.marker.chain = .shift ∧ (t.marker.job.map (fun j => (j.position, j.positions, j.requester))) = some (1, 238, .remark)
    ∧ t.outfeedRun = true := by decide +kernel

/-- `shed` with a settle request, its port waiting on ZERO SCALE. -/
def asked (who : Requester) (timer : Nat) (r : Reading) : State :=
  { shed with
    weigh := { shed.weigh with request := some ⟨who, 9000, false⟩, timer := timer, reading := some r },
    port := { Port.reset with busy := true, command := some 0x33 } }

theorem test_witness_ZeroScaleWaitsForASettle :
    ((laneAt .clear fill7 0).admits 0x33 ⟨[], []⟩ ∧ (laneAt .clear fill7 0).filler.step ≠ .idle)
    ∧ (let s : State := { shed with pins := ⟨false, true⟩ }; s.admits 0x33 ⟨[], []⟩ ∧ s.pins.chest = true)
    ∧ (shed.admits 0x33 ⟨[], []⟩ ∧ shed.filler.step = .idle ∧ shed.pins.chest = false)
    ∧ ((asked .zeroScale 0 ⟨0, 0, false⟩).weigh.request = some ⟨.zeroScale, 9000, false⟩
      ∧ ((asked .zeroScale 0 ⟨0, 0, false⟩).elapse 5000).port.command = some 0x33
      ∧ msUntil ((9000 : Time) + 5000) (asked .zeroScale 0 ⟨0, 0, false⟩).books.time = 5000) := by decide +kernel

/-- ZERO SCALE's end at 5,000 ms. -/
theorem test_zero_scale_timeout :
    let t := after .zeroScaleTimeout (asked .zeroScale 0 ⟨0, 0, false⟩)
    t.books.time = 14000 ∧ t.weigh.request = none ∧ t.port.reply = some ⟨0x33, .notSteady, []⟩ := by decide +kernel

theorem test_witness_BinCommandsQueueOneFrame :
    (shed.admits 0x30 ⟨[0, 0, 1, 0, 2], []⟩ ∧ shed.admits 0x30 ⟨[65, 0, 1, 0, 2], []⟩ ∧ shed.admits 0x31 ⟨[0], []⟩ ∧ shed.admits 0x32 ⟨[65], []⟩
      ∧ byteAt [65] 0 = 65)
    ∧ (shed.admits 0x30 ⟨[1, 0, 1, 0, 2], []⟩ ∧ shed.admits 0x31 ⟨[64], []⟩ ∧ shed.admits 0x32 ⟨[64], []⟩ ∧ byteAt [64] 0 = 64) := by
  decide +kernel

/-- The three bin commands' frames; the bin's own record stands. -/
theorem test_bin_commands :
    let s := bins (stocked 300) ⟨.low, some 7, some 9, 0⟩
    (after (.binFill ⟨[1, 0x08, 0xC0, 0x03, 0x20], []⟩) s).books.tx = [waiting (.bin 0 1 1 2240 800)]
    ∧ (after (.binEmpty ⟨[2], []⟩) s).books.tx = [waiting (.bin 0 2 2 7 0)]
    ∧ (after (.binWithdraw ⟨[2], []⟩) s).books.tx = [waiting (.bin 0 2 3 7 9)]
    ∧ (after (.binWithdraw ⟨[2], []⟩) s).books.bins = s.books.bins := by decide +kernel

/-! ### Witnesses: reads -/

theorem test_witness_ReadInvoiceGivesTheRecord :
    (shed.admits 0x40 ⟨[0, 8], []⟩ ∧ shed.books.invoice? 8 = none)
    ∧ (shed.admits 0x40 ⟨inv7, []⟩ ∧ shed.books.invoice? 7 = some invoice7) := by decide +kernel

/-- READ INVOICE: 111 bytes, whose first four mean the number and the garden mark. -/
theorem test_read_invoice :
    ((after (.readInvoice ⟨inv7, []⟩) shed).port.reply.map (fun r => (r.data.length, r.data.take 4)))
      = some (111, [0, 7, 2, 0x41]) := by decide +kernel

/-- `shed` with an orphan. -/
def orphaned : State := shedWith (fun b => { b with chests := [own1, heard2, orphan5] })

theorem test_witness_ReadChestAndBinGiveTheRecord :
    (shed.admits 0x41 ⟨[0, 7, 3, 1], []⟩ ∧ shed.admits 0x41 ⟨[0, 7, 1, 0], []⟩ ∧ shed.admits 0x41 ⟨[0, 7, 1, 100], []⟩
      ∧ shed.admits 0x41 ⟨[0, 7, 2, 0], []⟩ ∧ byteAt [0, 7, 1, 100] 3 = 100)
    ∧ (shed.admits 0x41 ⟨[0, 8, 1, 99], []⟩ ∧ shed.books.invoice? 8 = none)
    ∧ (shed.admits 0x41 ⟨[0, 7, 1, 3], []⟩ ∧ shed.books.invoice? 7 ≠ none
      ∧ (∀ c ∈ shed.books.chests, c.invoice = 7 → c.key = .packed 1 ∨ c.key = .packed 2))
    ∧ (orphaned.admits 0x41 ⟨[0, 7, 2, 1], []⟩ ∧ orphan5 ∈ orphaned.books.chests ∧ orphan5.key = .orphan 5
      ∧ (∀ d ∈ orphaned.books.chests, d.orphan?.isSome → d = orphan5))
    ∧ (shed.admits 0x41 ⟨[0, 7, 1, 2], []⟩ ∧ heard2 ∈ shed.books.chests ∧ heard2.key = .packed 2
      ∧ (∀ d ∈ shed.books.chests, d = heard2 ∨ d.key = .packed 1))
    ∧ (shed.admits 0x42 ⟨[0], []⟩ ∧ shed.admits 0x42 ⟨[65], []⟩ ∧ shed.admits 0x42 ⟨[1], []⟩ ∧ shed.admits 0x42 ⟨[64], []⟩
      ∧ byteAt [65] 0 = 65) := by decide +kernel

/-- READ CHEST takes the lowest record at or above the number asked for. -/
theorem test_read_chest :
    (after (.readChest ⟨[0, 7, 1, 2], []⟩) orphaned).port.reply
      = some ⟨0x41, .ok, [0, 7, 2, 0, 3, 2, 1, 2, 18, 0, 30, 1, 244, 0, 0, 2, 0, 2, 1, 1, 44, 2, 0, 200, 0, 0, 0, 0, 0, 0]⟩
    ∧ (after (.readChest ⟨[0, 7, 2, 1], []⟩) orphaned).port.reply.map (fun r => r.data.take 4) = some [0, 7, 0, 5]
    ∧ (after (.readChest ⟨[0, 7, 2, 6], []⟩) orphaned).port.reply = some ⟨0x41, .notPresent, []⟩ := by decide +kernel

/-- READ BIN of a bin that a feeder serves. -/
theorem test_read_bin :
    (after (.readBin ⟨[2], []⟩) (bins (stocked 300) ⟨.low, some 7, some 9, 3⟩)).port.reply
      = some ⟨0x42, .ok, [2, 0, 7, 0, 9, 0, 3, 2]⟩ := by decide +kernel

/-- A lot sheet of two lines. -/
def sheet7 : LotSheet where
  invoice := 7
  mark := [0x41]
  grade := [0x4F]
  planned := 3
  packed := 2
  status := .short
  gross := 1060
  tare := 60
  net := 1000
  samples := 10
  offBlend := 0
  unmarked := 1
  conflicts := 1
  missing := [3]
  unconfirmed := [5]
  inProgress := [3, 9]
  closerInProgress := false
  reportedPacked := 2
  reportedNet := 1000
  reportedSurrendered := 1
  lines := [⟨1, 1, 530, 30, 500, none, false, true, none⟩, ⟨2, 3, 530, 30, 500, some 10, true, false, some 4⟩]

/-- `shed` with the sheet. -/
def sheeted : State :=
  shedWith (fun b => { b with invoices := [{ invoice7 with state := .closed }], sheets := [sheet7] })

theorem test_witness_ReadLotSheetGivesThePart :
    (shed.admits 0x43 ⟨[0, 8, 1, 0], []⟩ ∧ shed.books.invoice? 8 = none)
    ∧ (shed.admits 0x43 ⟨[0, 7, 1, 0], []⟩ ∧ shed.books.invoice? 7 ≠ none ∧ shed.books.sheet? 7 = none)
    ∧ (sheeted.admits 0x43 ⟨[0, 7, 0, 0], []⟩ ∧ sheeted.admits 0x43 ⟨[0, 7, 5, 0], []⟩ ∧ sheeted.admits 0x43 ⟨[0, 7, 4, 0], []⟩
      ∧ sheeted.admits 0x43 ⟨[0, 7, 4, 3], []⟩ ∧ sheeted.books.sheet? 7 = some sheet7 ∧ sheet7.lines.length < 3)
    ∧ (sheeted.admits 0x43 ⟨[0, 7, 1, 0], []⟩ ∧ sheeted.admits 0x43 ⟨[0, 7, 2, 0], []⟩ ∧ sheeted.admits 0x43 ⟨[0, 7, 3, 0], []⟩)
    ∧ (sheeted.admits 0x43 ⟨[0, 7, 4, 2], []⟩ ∧ sheet7.lines[2 - 1]?.isSome) := by decide +kernel

/-- READ LOT SHEET: the lists and a line with all but one flag. -/
theorem test_read_lot_sheet :
    (after (.readLotSheet ⟨[0, 7, 2, 0], []⟩) sheeted).port.reply = some ⟨0x43, .ok, [1, 3]⟩
    ∧ (after (.readLotSheet ⟨[0, 7, 3, 0], []⟩) sheeted).port.reply = some ⟨0x43, .ok, [1, 5, 2, 3, 9]⟩
    ∧ (after (.readLotSheet ⟨[0, 7, 4, 2], []⟩) sheeted).port.reply
      = some ⟨0x43, .ok, [2, 3, 2, 18, 0, 30, 1, 244, 10, 5, 4]⟩ := by decide +kernel

/-- RELEASE INVOICE frees the lot sheet, after which it is refused with NO_LOT (R49); an invoice released without one, and
one opened again, is refused with NOT_ACTIVE when it is not in the table (R163). -/
theorem test_released_lot_sheet :
    let released := ({ sheeted with books := sheeted.books.release 7 } : State)
    released.books.sheets = [] ∧ released.books.hasInvoice 7 = false
    ∧ (after (.readLotSheet ⟨[0, 7, 1, 0], []⟩) released).port.reply = some ⟨0x43, .noLot, []⟩
    ∧ (after (.readLotSheet ⟨[0, 8, 1, 0], []⟩) released).port.reply = some ⟨0x43, .notActive, []⟩
    ∧ (shed.books.release 7).released = []
    ∧ (released.books.openInvoice [0, 7]).released = [] := by decide +kernel

theorem test_witness_ReadLotSheetGivesThePart_released :
    let s : State := { shed with books := { shed.books with released := [8] } }
    s.admits 0x43 ⟨[0, 8, 1, 0], []⟩ ∧ s.books.invoice? 8 = none ∧ 8 ∈ s.books.released ∧ 8 ∉ shed.books.released := by
  decide +kernel

theorem test_witness_AbandonAndReleaseFreeTheRecord_sheets :
    (sheeted.admits 0x13 ⟨inv7, []⟩ ∧ (∃ r ∈ sheeted.books.invoice? 7, r.state = .closed) ∧ sheeted.books.sheet? 7 ≠ none)
    ∧ (shed7 (fun r => { r with state := .closed })).books.sheet? 7 = none := by decide +kernel

theorem test_witness_ReadNoticeTakesTheOldest :
    (shed.admits 0x44 ⟨[], []⟩ ∧ shed.books.notices = [])
    ∧ (let s := shedWith (fun b => { b with notices := List.replicate 32 ⟨.online, 1, none, none, none⟩ });
      s.admits 0x44 ⟨[], []⟩ ∧ s.books.notices.tail.length < 32 ∧ s.books.notices ≠ [])
    ∧ (let s := shedWith (fun b => { b with notices := List.replicate 33 ⟨.online, 1, none, none, none⟩ });
      s.admits 0x44 ⟨[], []⟩ ∧ ¬ s.books.notices.tail.length < 32) := by decide +kernel

/-- READ NOTICE: the oldest leaves. -/
theorem test_read_notice :
    let s := shedWith (fun b => { b with notices :=
      [⟨.markDone, 0x01020304, some 7, some 1, some 2⟩, ⟨.online, 1, none, none, none⟩] })
    (after (.readNotice ⟨[], []⟩) s).port.reply = some ⟨0x44, .ok, [11, 1, 2, 3, 4, 0, 7, 1, 1, 0, 2, 1]⟩
    ∧ (after (.readNotice ⟨[], []⟩) s).books.notices = [⟨.online, 1, none, none, none⟩] := by decide +kernel

/-- `shed` with two faults. -/
def faulty : State :=
  shedWith (fun b => { b with faults := [⟨.lineHeld, 2, .present, 1, 3⟩, ⟨.viewLost, 1, .cleared, 4, 4⟩] })

theorem test_witness_ReadFaultGivesTheLowestCode :
    (faulty.portFree ∧ faulty.books.faults.map (fun e => e.code.num) = [16, 18] ∧ byteAt [16] 0 = 16)
    ∧ (byteAt [17] 0 = 17 ∧ byteAt [18] 0 = 18)
    ∧ (∀ e ∈ faulty.books.faults, e.code.num < byteAt [19] 0) := by decide +kernel

/-- READ FAULT at and above an entry's code. -/
theorem test_read_fault :
    (after (.readFault ⟨[16], []⟩) faulty).port.reply = some ⟨0x45, .ok, [16, 2, 1, 0, 0, 0, 1, 0, 0, 0, 3, 2]⟩
    ∧ (after (.readFault ⟨[17], []⟩) faulty).port.reply = some ⟨0x45, .ok, [18, 1, 2, 0, 0, 0, 4, 0, 0, 0, 4, 2]⟩ := by
  decide +kernel

theorem test_witness_AckFaultRemovesAClearedEntry :
    (faulty.admits 0x46 ⟨[17], []⟩ ∧ (∀ e ∈ faulty.books.faults, e.code.num ≠ 17))
    ∧ (faulty.admits 0x46 ⟨[16], []⟩ ∧ ∃ e ∈ faulty.books.faults, e.code.num = 16 ∧ e.cause = .present)
    ∧ (faulty.admits 0x46 ⟨[18], []⟩ ∧ faulty.books.station ≠ .halt
      ∧ ∃ e ∈ faulty.books.faults, e.code.num = 18 ∧ e.cause = .cleared
        ∧ ∀ d ∈ faulty.books.faults, d.code.num = 18 → d = e)
    ∧ (let s := shedWith (fun b => { b with station := .halt, faults := [⟨.lineDrive, 1, .cleared, 0, 0⟩] });
      s.admits 0x46 ⟨[3], []⟩ ∧ s.books.station = .halt ∧ (∀ d ∈ s.books.faults, d.code.num ≠ 3 → 5 < d.code.num))
    ∧ (let s := shedWith (fun b => { b with
          station := .halt, faults := [⟨.lineDrive, 1, .cleared, 0, 0⟩, ⟨.scaleSaturated, 1, .cleared, 0, 0⟩] });
      s.admits 0x46 ⟨[5], []⟩ ∧ s.books.station = .halt
        ∧ ∃ d ∈ s.books.faults, d.code.num ≠ 5 ∧ 3 ≤ d.code.num ∧ d.code.num ≤ 5) := by decide +kernel

/-- A close round in its window. -/
def round7 : Round where
  invoice := 7
  number := 1
  phase := .window 9150
  extensions := 0
  answers := [⟨1, 0, 1, 0, 500⟩]

/-- `shed` closing invoice 7 with the round given. -/
def closing (w : Round) : State :=
  shedWith (fun b => { b with
    invoices := [{ invoice7 with state := .closing, role := some .closer, free := [] }], rounds := [w] })

theorem test_witness_ReadStatusGivesThePart :
    (shed.admits 0x47 ⟨[0, 0, 7], []⟩ ∧ shed.admits 0x47 ⟨[6, 0, 7], []⟩ ∧ byteAt [6, 0, 7] 0 = 6)
    ∧ (shed.admits 0x47 ⟨[1, 0, 0], []⟩ ∧ shed.admits 0x47 ⟨[2, 0, 0], []⟩ ∧ shed.admits 0x47 ⟨[3, 0, 0], []⟩)
    ∧ (shed.admits 0x47 ⟨[4, 0, 0], []⟩ ∧ shed.marker.job = none)
    ∧ ((marking .wait job7).admits 0x47 ⟨[4, 0, 0], []⟩ ∧ (marking .wait job7).marker.job = some job7)
    ∧ (shed.admits 0x47 ⟨[5, 0, 8], []⟩ ∧ shed.books.invoice? 8 = none)
    ∧ (shed.admits 0x47 ⟨[5, 0, 7], []⟩ ∧ shed.books.invoice? 7 ≠ none ∧ shed.books.round? 7 = none)
    ∧ ((closing round7).admits 0x47 ⟨[5, 0, 7], []⟩ ∧ (closing round7).books.invoice? 7 ≠ none
      ∧ (closing round7).books.round? 7 = some round7) := by decide +kernel

/-- READ STATUS: the lane, the scale and the close. -/
theorem test_read_status :
    (after (.readStatus ⟨[2, 0, 0], []⟩) (laneAt (.settle 2) fill7 0)).port.reply
      = some ⟨0x47, .ok, [4, 2, 0, 7, 1, 0, 1, 0, 50, 0, 50, 0, 0, 0, 0]⟩
    ∧ (after (.readStatus ⟨[3, 0, 0], []⟩) (laneAt .tare fill7 (-3))).port.reply
      = some ⟨0x47, .ok, [1, 255, 255, 253, 0, 1, 0, 0, 0, 0]⟩
    ∧ (after (.readStatus ⟨[5, 0, 7], []⟩) (closing round7)).port.reply = some ⟨0x47, .ok, [1, 1, 0, 150, 0, 1]⟩ := by
  decide +kernel

/-! ### Witnesses: the shed line -/

/-- `shed` CONFIGURED and waiting to go ONLINE on a busy line. -/
def waitingLine : State :=
  { shedWith (fun b => { b with station := .configured, onlineWait := true }) with line := Line.reset }

theorem test_witness_LineStatesFollowTheRuns :
    (listening.inReset = false ∧ listening.line.level ≠ .idle ∧ listening.line.role ≠ .sender
      ∧ listening.books.onlineWait = false ∧ listening.line.level = .busy)
    ∧ (waitingLine.inReset = false ∧ waitingLine.line.level ≠ .idle ∧ waitingLine.line.role ≠ .sender
      ∧ waitingLine.books.onlineWait = true)
    ∧ (shed.line.level = .idle ∧ (0 : BitVec 11).getLsbD 0 = false ∧ (0 : BitVec 11).getLsbD 8 = false
      ∧ (0 : BitVec 11).getLsbD 9 = false ∧ (0 : BitVec 11).getLsbD 10 = false) := by decide +kernel

/-- Lost framing at IDLE raises VIEW_LOST and makes the open invoice stale; a dominant line is HELD; a start is
confirmed by the majority of its last samples, and not by tick 0 alone. -/
theorem test_line_states :
    (after .lineIdle { listening with line := { listening.line with role := .none, lost := true } }).books.faults
      = [⟨.viewLost, 1, .cleared, 9000, 9000⟩]
    ∧ (after .lineHeld listening).line.level = .held ∧ (after .lineHeld listening).books.faults = [⟨.lineHeld, 1, .present, 9000, 9000⟩]
    ∧ (after (.startConfirmed (samplesOf (0x400 : BitVec 11))) shed).line.level = .busy ∧ (after (.startConfirmed (samplesOf (0x600 : BitVec 11))) shed).line.level = .idle := by
  decide +kernel

/-- An entry not to be sent before invoice 7 is ACTIVE. -/
def heldClaim : TxEntry := waiting (.claim 7 12 5 4)

theorem test_witness_BeginFrameSendsTheOldestEligible :
    (let s := { shedTx [heldClaim, waiting (.mark 7 1 2)] with line := shed.line };
      let t : State := { s with books := { s.books with invoices := [{ invoice7 with state := .stale }] } };
      t.books.station = .online ∧ t.line.level = .idle ∧ t.books.tx = [heldClaim] ++ waiting (.mark 7 1 2) :: []
        ∧ t.books.holds heldClaim = true ∧ t.books.holds (waiting (.mark 7 1 2)) = false
        ∧ (after .beginFrame t).books.tx = [heldClaim, sendingEntry (.mark 7 1 2)])
    ∧ (State.reset.books.station ≠ .online ∧ State.reset.books.station ≠ .halt)
    ∧ listening.line.level ≠ .idle ∧ shed.books.tx = [] ∧ shed.line.candidate = []
    ∧ ({ shed with line := { shed.line with candidate := [false] } } : State).line.candidate ≠ [] := by decide +kernel

theorem test_witness_ArbitrationLostMakesAReceiver :
    (let s := senderOfFrame (.claim 7 12 5 4);
      s.line.role = .sender ∧ s.books.tx = [] ++ sendingEntry (.claim 7 12 5 4) :: []
        ∧ (sendingEntry (.claim 7 12 5 4)).removal = .none
        ∧ (∃ c ∈ (frameChars 1 (.claim 7 12 5 4))[2 - 1]?, (RxChar.bits c)[9 - 1]? = some true)
        ∧ (∃ c ∈ (frameChars 1 (.claim 7 12 5 4))[3 - 1]?, (RxChar.bits c)[10 - 1]? = some true)) := by decide +kernel

/-- A loss in H2 keeps the entry; a loss in H3 is a clash. -/
theorem test_arbitration_lost :
    let s := senderOfFrame (.claim 7 12 5 4)
    (after (.arbitrationLost 2 ⟨9, 0⟩) s).line.role = .receiver true
    ∧ (after (.arbitrationLost 2 ⟨9, 0⟩) s).line.assembler.chars = [mirror 4]
    ∧ (after (.arbitrationLost 2 ⟨9, 0⟩) s).books.tx = [heldClaim]
    ∧ (after (.arbitrationLost 3 ⟨10, 0⟩) s).books.station = .offline
    ∧ (after (.arbitrationLost 2 ⟨1, 0⟩) s) = s := by decide +kernel

theorem test_witness_AttemptsAreJudgedAndApplied :
    (let s := senderOfFrame (.claim 7 12 5 4);
      s.line.role = .sender ∧ s.books.tx = [] ++ sendingEntry (.claim 7 12 5 4) :: []
        ∧ (sendingEntry (.claim 7 12 5 4)).underWay = true ∧ (sendingEntry (.claim 7 12 5 4)).removal = .none)
    ∧ (judgeAttempt true true 1 = .again ∧ judgeAttempt true true 4 = .disputed ∧ judgeAttempt false false 4 = .unheard
      ∧ judgeAttempt true false 1 = .delivered ∧ judgeAttempt false false 3 = .again)
    ∧ ([2, 3, 5, 7, 8] : List Nat) = [Frame.kind (.closed 7 1 0 0 0), Frame.kind (.tally 7 ⟨1, 12, 0, 0, 0, 0, 0⟩),
        Frame.kind (.void 7 1), Frame.kind (.sample 7 1 1), Frame.kind (.mark 7 1 2)] := by decide +kernel

/-- A delivered CLAIM fills the free list; an unheard attempt waits with count 1; a drive failure halts. -/
theorem test_attempt_end :
    let s := senderOfFrame (.claim 7 12 5 4)
    ((after (.attemptEnd 0 0xFFFF) s).books.invoice? 7).map (fun r => (r.free, r.high, r.sent))
      = some ([3, 4, 5, 6, 7, 8], 8, none)
    ∧ (after (.attemptEnd 0 0xFFFF) s).books.tx = []
    ∧ (after (.attemptEnd 0xFFFF 0xFFFF) s).books.tx = [{ heldClaim with attempts := 1 }]
    ∧ (after (.lineDrive 1 ⟨1, 0x7FF⟩) (senderOfFrame (.mark 7 1 2))).books.station = .halt
    ∧ (after (.lineDrive 1 ⟨1, 0x7FF⟩) (senderOfFrame (.mark 7 1 2))).books.tx = [{ waiting (.mark 7 1 2) with attempts := 1 }] := by
  decide +kernel

/-- The samples that a bit reads as when it is sent dominant and its driver fails from tick 6 on. -/
def failing : BitVec 11 := 0x7C0

/-- A drive failure at the start bit of H1, and at the mark of the first body character, whose runs the samples give. -/
theorem test_drive_failure :
    let s := senderOfFrame (.mark 7 1 2)
    s.sentBit 1 1 = some false ∧ s.sentBit 5 10 = some false ∧ s.sentBit 5 11 = some true ∧ s.sentBit 9 1 = none
    ∧ levelOf failing = true
    ∧ ((after (.lineDrive 5 ⟨10, failing⟩) s).line.recessiveRun, (after (.lineDrive 5 ⟨10, failing⟩) s).line.dominantRun)
      = (5, 0)
    ∧ (after (.lineDrive 5 ⟨10, failing⟩) s).line.role = .none
    ∧ (after (.lineDrive 5 ⟨10, failing⟩) s).books.tx = [{ waiting (.mark 7 1 2) with attempts := 1 }]
    ∧ after (.lineDrive 5 ⟨10, 0x400⟩) s = s ∧ after (.lineDrive 5 ⟨11, failing⟩) s = s
    ∧ after (.lineDrive 9 ⟨1, failing⟩) s = s ∧ after (.lineDrive 5 ⟨10, failing⟩) listening = listening := by
  decide +kernel

theorem test_witness_AttemptsAreJudgedAndApplied_drive :
    let s := senderOfFrame (.mark 7 1 2)
    s.line.role = .sender ∧ s.books.tx = [] ++ sendingEntry (.mark 7 1 2) :: [] ∧ s.books.station = .online
    ∧ (frameChars s.books.straps.station (.mark 7 1 2))[5 - 1]? = some ⟨1, false, true⟩
    ∧ (RxChar.bits ⟨1, false, true⟩)[10 - 1]? = some false ∧ (RxChar.bits ⟨1, false, true⟩)[11 - 1]? = some true
    ∧ levelOf failing = true ∧ levelOf (0x400 : BitVec 11) = false ∧ listening.line.role ≠ .sender := by decide +kernel

/-- The entry under way at a drive failure: it waits below four attempts, leaves unheard at the fourth with FRAME_UNHEARD,
and by its removal when HALT has marked a CLAIM, applied, or ABANDON INVOICE has discarded it; outside ONLINE it waits. -/
theorem test_drive_failure_attempts :
    let sent (f : Frame) (n : Nat) (r : Removal) : State := { senderOfFrame f with
      books := { shed.books with tx := [{ sendingEntry f with attempts := n, removal := r }, waiting (.mark 7 1 2)] } }
    let fails (s : State) : Books := (after (.lineDrive 1 ⟨1, failing⟩) s).books
    let claim : Frame := .claim 7 12 5 4
    let stopped : State := { sent claim 2 .none with books := { (sent claim 2 .none).books with station := .halt } }
    (fails (sent (.void 7 9) 2 .none)).tx = [{ waiting (.void 7 9) with attempts := 3 }, waiting (.mark 7 1 2)]
    ∧ (fails (sent (.void 7 9) 3 .none)).tx = [waiting (.mark 7 1 2)]
    ∧ (fails (sent (.void 7 9) 3 .none)).notices = [⟨.frameUnheard, 9000, some 7, some 9, some 5⟩]
    ∧ (fails (sent claim 0 .none)).tx = [waiting (.mark 7 1 2)]
    ∧ (fails (sent claim 0 .none)).freeOf 7 = [3, 4, 5, 6, 7, 8]
    ∧ (fails (sent claim 1 .discard)).tx = [waiting (.mark 7 1 2)] ∧ (fails (sent claim 1 .discard)).freeOf 7 = [3, 4]
    ∧ (fails stopped).tx = [{ waiting claim with attempts := 3 }, waiting (.mark 7 1 2)] := by decide +kernel

/-- The characters of a frame from station 3, one bit of the check wrong. -/
def damaged : List RxChar := (frameChars 3 (.census 7 12)).modify 6 (fun c => { c with data := ~~~c.data })

theorem test_witness_FramesNotTakenAreGivenUp :
    (listening.line.role = .receiver true ∧ listening.hears = true
      ∧ listening.judged [⟨mirror 6, true, false⟩] = .lost ∧ listening.judged [⟨mirror 6, false, true⟩] = .lost
      ∧ listening.judged [head (mirror 11)] = .lost ∧ listening.judged [head 0] = .lost)
    ∧ (judge listening.books.hasInvoice ((frameChars 3 (.census 8 12)).take 4) = .filtered)
    ∧ ((passedHeader damaged).hears = true ∧ (passedHeader damaged).judged damaged = .naked)
    ∧ (let s : State := { listening with line := { listening.line with role := .receiver false } };
      s.hears = false ∧ s.judged damaged = .naked)
    ∧ (heardOf (.censusFrame (from_ 3) 7 100) = some (from_ 3, .census 7 100) ∧ Frame.inRange 3 (.census 7 100) = false)
    ∧ (heardOf (.censusFrame (from_ 3) 7 0) = some (from_ 3, .census 7 0) ∧ Frame.inRange 3 (.census 7 0) = false) := by decide +kernel

/-- A lost, a filtered and a NAKed frame; the last makes the open invoice STALE. -/
theorem test_frames_not_taken :
    (after (.frameLost (onLine [head 0])) listening).line.lost = true
    ∧ (after (.frameFiltered (onLine ((frameChars 3 (.census 8 12)).take 4))) listening).line.slot = .none
    ∧ (after (.frameNaked ⟨onLine damaged, quiet⟩) (passedHeader damaged)).line.slot = .nak
    ∧ ((after (.frameNaked ⟨onLine damaged, quiet⟩) (passedHeader damaged)).books.invoice? 7).map (·.state) = some .stale := by decide +kernel

/-! ### Witnesses: frames heard -/

theorem test_witness_HeardVoidSampleAndMark :
    listening.hears = true
    ∧ (Frame.inRange 3 (.void 7 2) = true ∧ listening.books.invoice? 7 = some invoice7 ∧ invoice7.state ≠ .closed
      ∧ listening.books.chest? 7 2 = some heard2 ∧ heard2.origin = .heard ∧ heard2.station = 3)
    ∧ (Frame.inRange 3 (.void 7 99) = true ∧ listening.books.chest? 7 99 = none)
    ∧ (Frame.inRange 3 (.void 8 1) = true ∧ listening.books.invoice? 8 = none)
    ∧ (let s := listeningWith (fun b => { b with chests := [{ own1 with conflict := some 4 }] });
      s.hears = true ∧ Frame.inRange 4 (.void 7 1) = true
        ∧ ∃ c ∈ s.books.chest? 7 1, c.origin = .own ∧ c.conflict = some 4)
    ∧ (own1.conflict ≠ some 4)
    ∧ (Frame.inRange 3 (.sample 7 2 50) = true ∧ heard2.sample = none ∧ 50 ≤ heard2.net)
    ∧ (let s := listeningWith (fun b => { b with chests := [{ heard2 with net := 49 }] });
      s.hears = true ∧ ∃ c ∈ s.books.chest? 7 2, c.net < 50)
    ∧ (Frame.inRange 3 (.mark 7 2 1) = true ∧ Frame.inRange 3 (.mark 7 2 4) = true ∧ Frame.inRange 4 (.mark 7 1 2) = true
      ∧ listening.books.chest? 7 1 = some own1 ∧ own1.origin = .own) := by decide +kernel

/-- SAMPLE and MARK heard reach the record of their sender. -/
theorem test_sample_and_mark_heard :
    (hear (.sampleFrame (from_ 3) 7 2 50) listening).books.chests = [own1, { heard2 with sample := some 50 }]
    ∧ (hear (.markFrame (from_ 3) 7 2 3) listening).books.chests = [own1, { heard2 with mark := .defect }]
    ∧ (hear (.markFrame (from_ 4) 7 2 3) listening).books.chests = [own1, heard2]
    ∧ (hear (.markFrame (from_ 3) 7 2 3) listening).line.slot = .ack := by decide +kernel

theorem test_witness_HeardBinAndChest :
    listening.hears = true
    ∧ (Frame.inRange 3 (.bin 0 64 3 65535 0) = true ∧ Frame.inRange 3 (.bin 0 1 1 0 65535) = true)
    ∧ (heardOf (.chestFrame (from_ 3) 7 2 530 30 500 0 [(1, 500)]) = some (from_ 3, .chest 7 ⟨2, 530, 30, 500, 0, [⟨1, 500⟩]⟩)
      ∧ Frame.inRange 3 (.chest 7 ⟨2, 530, 30, 500, 0, [⟨1, 500⟩]⟩) = true
      ∧ listening.books.invoice? 7 = some invoice7 ∧ invoice7.state ≠ .closed)
    ∧ (Frame.inRange 3 (.chest 8 ⟨0, 0, 0, 0, 0, [⟨1, 0⟩]⟩) = true ∧ listening.books.invoice? 8 = none)
    ∧ (∃ r ∈ (shed7 (fun r => { r with state := .closed })).books.invoice? 7, r.state = .closed)
    ∧ (shed.books.chest? 7 9 = none ∧ shed.books.freeSlots ≥ 2)
    ∧ (let b := (shedWith (fun b => { b with chests := List.replicate 255 heard2 })).books;
      b.chest? 7 9 = none ∧ b.freeSlots = 1 ∧ b.reservation = none)
    ∧ (let b := (shedWith (fun b => { b with chests := List.replicate 254 heard2, reservation := some 1 })).books;
      b.chest? 7 9 = none ∧ b.freeSlots = 1 ∧ b.reservation ≠ none)
    ∧ ((shedWith (fun b => { b with chests := List.replicate 256 heard2 })).books.freeSlots = 0)
    ∧ (shed.books.chest? 7 2 = some heard2 ∧ heard2.origin = .heard ∧ heard2.station = 3)
    ∧ (shed.books.chest? 7 1 = some own1 ∧ own1.origin = .own)
    ∧ shed.books.straps.station ≠ 31 := by decide +kernel

/-- BIN heard: a FILL below the threshold is LOW; an EMPTY leaves the batch. -/
theorem test_bin_heard :
    (after (.binFrame (from_ 3) 0 5 1 9 99) listening).books.bin 5 = ⟨.low, some 9, some 99, 0⟩
    ∧ (after (.binFrame (from_ 3) 0 5 1 9 100) listening).books.bin 5 = ⟨.stocked, some 9, some 100, 0⟩
    ∧ (after (.binFrame (from_ 3) 0 1 2 7 0) { bins (stocked 300) Bin.reset with line := listening.line }).books.bin 1
      = ⟨.empty, some 1, some 0, 0⟩ := by decide +kernel

theorem test_witness_HeardCensusAndTally :
    listening.hears = true
    ∧ (Frame.inRange 8 (.census 7 1) = true ∧ Frame.inRange 8 (.census 7 99) = true ∧ Frame.inRange 8 (.census 8 12) = true)
    ∧ (listening.books.invoice? 7 = some invoice7 ∧ invoice7.state = .active ∧ 11 ≠ invoice7.planned
      ∧ 11 < invoice7.ceiling ∧ invoice7.ceiling ≤ 13)
    ∧ (∃ r ∈ (closing round7).books.invoice? 7, r.state = .closing ∧ r.role = some .closer)
    ∧ (heardOf (.tallyFrame (from_ 3) 7 1 12 0 0 16 1 0) = some (from_ 3, .tally 7 ⟨1, 12, 0, 0, 16, 1, 0⟩)
      ∧ Frame.inRange 3 (.tally 7 ⟨1, 12, 0, 0, 16, 1, 0⟩) = true ∧ Frame.inRange 3 (.tally 7 ⟨2, 12, 99, 99, 0, 0, 0⟩) = true)
    := by decide +kernel

/-- TALLY heard: a census answer joins the tally set in the window; a close answer joins the round. -/
theorem test_tally_heard :
    let w : State := listeningWith (fun b => { b with
      invoices := [{ invoice7 with state := .census, phase := .window 9100, participants := [1] }] })
    let c : State := { closing round7 with line := listening.line }
    ((hear (.tallyFrame (from_ 3) 7 1 12 9 6 2 1 0) w).books.invoice? 7).map (fun r => (r.high, r.participants, r.tallies))
      = some (9, [1, 3], [⟨3, 6⟩])
    ∧ ((hear (.tallyFrame (from_ 3) 7 2 12 9 6 2 1 77) c).books.round? 7).map (·.answers)
      = some [⟨1, 0, 1, 0, 500⟩, ⟨3, 1, 6, 2, 77⟩] := by decide +kernel

theorem test_witness_HeardClaimAndSerial :
    listening.hears = true
    ∧ (Frame.inRange 3 (.claim 7 12 92 8) = true ∧ Frame.inRange 3 (.claim 7 12 3 1) = true
      ∧ Frame.inRange 3 (.claim 7 12 93 8) = false)
    ∧ (listening.books.invoice? 7 = some invoice7 ∧ (∀ x ∈ listening.books.invoices, x.number = 7 → x = invoice7))
    ∧ (let b := (shedTx [heldClaim]).books;
      (∃ e ∈ b.tx, e.frame.kind = 4 ∧ e.frame.invoice = 7 ∧ e.attempts = 0 ∧ e.removal = .none)
        ∧ (∀ e ∈ b.tx, e.underWay = false) ∧ ∃ r ∈ b.invoice? 7, r.high < r.ceiling)
    ∧ (let b : Books := { (shedTx [heldClaim]).books with invoices := [{ invoice7 with high := 12 }] };
      ∃ r ∈ b.invoice? 7, r.ceiling ≤ r.high) := by decide +kernel

/-- CLAIM heard: the named serials leave the list, and this station's own CLAIM is sized anew. -/
theorem test_claim_heard :
    let t := hear (.claimFrame (from_ 3) 7 12 4 5) (listeningWith (fun b => { b with tx := [heldClaim] }))
    (t.books.invoice? 7).map (fun r => (r.free, r.high)) = some ([3], 8)
    ∧ t.books.tx = [waiting (.claim 7 12 9 4)] := by decide +kernel

theorem test_witness_HeardCloseCallAndClosed :
    listening.hears = true
    ∧ (Frame.inRange 3 (.closeCall 7 2 99 99) = true ∧ Frame.inRange 3 (.closed 7 1 0 99 16777215) = true)
    ∧ (listening.books.invoice? 7 = some invoice7 ∧ invoice7.state = .active ∧ listening.books.invoice? 8 = none)
    ∧ (∃ r ∈ (closing round7).books.invoice? 7, r.state = .closing ∧ r.role = some .closer)
    ∧ (∃ r ∈ (shed7 (fun r => { r with state := .closed })).books.invoice? 7, r.state = .closed)
    ∧ (let b := (shedTx [waiting (.closeCall 7 1 2 12)]).books;
      (∃ e ∈ b.tx, e.frame.kind = 1 ∧ e.frame.invoice = 7) ∧ (∀ e ∈ b.tx, e.underWay = false))
    ∧ (∀ e ∈ shed.books.tx, e.frame.invoice = 7 → e.frame.kind ≠ 4 ∧ e.frame.kind ≠ 10)
    ∧ (∀ x ∈ shed.books.invoices, x.number = 7 → x = invoice7) := by decide +kernel

/-- CLOSED heard at a peer that agrees and at a closer, which yields. -/
theorem test_closed_heard :
    let s : State := { shed7 (fun r => { r with planned := 2, ceiling := 2, state := .closing, role := some .peer }) with
      line := listening.line }
    let t := hear (.closedFrame (from_ 3) 7 1 2 0 1000) s
    t.books.notices = [⟨.invoiceClosed, 9000, some 7, none, some 1⟩]
    ∧ (t.books.invoice? 7).map (fun r => (r.state, r.role)) = some (.closed, some .peer)
    ∧ (hear (.closedFrame (from_ 3) 7 1 2 0 999) s).books.notices = [⟨.invoiceClosed, 9000, some 7, none, some 9⟩]
    ∧ (hear (.closedFrame (from_ 3) 7 2 2 10 1000) { closing round7 with line := listening.line }).books.notices
      = [⟨.invoiceClosed, 9000, some 7, none, some 2⟩, ⟨.closeYielded, 9000, some 7, none, some 2⟩] := by decide +kernel

/-! ### Witnesses: windows, extensions and completion -/

/-- `shed` in a census window. -/
def windowed (r : Invoice) : State := shedWith (fun b => { b with invoices := [{ r with phase := .window 9100 }] })

theorem test_witness_WindowsEndAtTheirTimes :
    (∃ r ∈ (windowed { invoice7 with recount := true }).books.invoice? 7, r.phase = .window 9100 ∧ r.recount = true)
    ∧ (∃ r ∈ (windowed invoice7).books.invoice? 7, r.phase = .window 9100 ∧ r.recount = false)
    ∧ ((closing round7).books.round? 7 = some round7 ∧ round7.phase = .window 9150 ∧ round7.number = 1
      ∧ (∃ r ∈ (closing round7).books.invoice? 7, ∃ x ∈ r.participants, ∀ a ∈ round7.answers, a.station ≠ x))
    ∧ ({ round7 with number := 2 } : Round).number ≠ 1
    ∧ (let w : Round := { round7 with answers := [⟨1, 0, 1, 0, 500⟩, ⟨3, 1, 1, 0, 500⟩] };
      (∃ r ∈ (closing w).books.invoice? 7, ∀ x ∈ r.participants, ∃ a ∈ w.answers, a.station = x)
        ∧ (∃ a ∈ w.answers, a.inProgress = 1))
    ∧ (let w : Round := { round7 with answers := [⟨1, 0, 1, 0, 500⟩, ⟨3, 0, 1, 0, 500⟩] };
      (∃ r ∈ (closing w).books.invoice? 7, ∀ x ∈ r.participants, ∃ a ∈ w.answers, a.station = x)
        ∧ (∀ a ∈ w.answers, a.inProgress ≠ 1))
    ∧ (let w : Round := { round7 with phase := .extension 9150, extensions := 2, answers := [⟨3, 1, 1, 0, 500⟩] };
      (closing w).books.round? 7 = some w ∧ (∃ a ∈ w.answers, a.inProgress = 1) ∧ w.extensions < 3)
    ∧ (let w : Round := { round7 with phase := .extension 9150, extensions := 3 };
      (closing w).books.round? 7 = some w ∧ 3 ≤ w.extensions) := by decide +kernel

/-- The census window's end compares the counts; a recount asks anew. -/
theorem test_census_window_end :
    ((after (.censusWindowEnd 7) (windowed { invoice7 with tallies := [⟨3, 1⟩] })).books.invoice? 7).map (·.view)
      = some .whole
    ∧ ((after (.censusWindowEnd 7) (windowed { invoice7 with tallies := [⟨3, 2⟩] })).books.invoice? 7).map (·.view)
      = some .short
    ∧ (after (.censusWindowEnd 7) (windowed { invoice7 with recount := true })).books.tx = [waiting (.census 7 12)] := by
  decide +kernel

/-- The close window's end: a second call, or the completion with its sheet. -/
theorem test_close_window_end :
    (after (.closeWindowEnd 7) (closing round7)).books.tx = [waiting (.closeCall 7 2 2 12)]
    ∧ (let t := after (.closeWindowEnd 7) (closing { round7 with number := 2 });
      t.books.tx = [waiting (.closed 7 2 2 10 1000)] ∧ t.books.rounds = []
        ∧ t.books.notices = [⟨.closeDone, 9150, some 7, none, some 2⟩]
        ∧ (t.books.sheet? 7).map (fun l => (l.status, l.unconfirmed, l.missing.length, l.lines.length))
          = some (.short, [3], 10, 2)) := by decide +kernel

/-- The extension's end: another one while a station is in progress, at most three. -/
theorem test_extension_end :
    let w : Round := { round7 with phase := .extension 9150, extensions := 2, answers := [⟨3, 1, 1, 0, 500⟩] }
    ((after (.extensionEnd 7) (closing w)).books.round? 7).map (fun w => (w.phase, w.extensions))
      = some (.extension 11150, 3)
    ∧ (after (.extensionEnd 7) (closing { w with extensions := 3 })).books.rounds = [] := by decide +kernel

/-! ### Witnesses: the Weigh Channel -/

/-- `shed` with a word of the count held since `t`. -/
def holding (count : Int) : State := { shed with weigh := { shed.weigh with holding := some ⟨count, 8999⟩ } }

theorem test_witness_WordsSamplesAndLoss :
    (List.replicate 23 true).length = 23 ∧ shed.weigh.scale ≠ none ∧ State.reset.weigh.scale = none
    ∧ ((holding 8388592).weigh.holding = some ⟨8388592, 8999⟩ ∧ (holding 8388592).weigh.scale = some scale0)
    ∧ (pushSample scale0.window (holding 3).weigh.window ⟨3, false⟩).length = scale0.window
    ∧ (shed.weigh.lastGood = some 8990 ∧ shed.weigh.lossFound = false ∧ msUntil ((8990 : Time) + 50) shed.books.time = 40) := by
  decide +kernel

/-- A word, a good sample at and below saturation, and sample loss after 50 ms. -/
theorem test_samples :
    (after (.sampleWord (⟨true, true⟩ :: List.replicate 23 ⟨false, false⟩)) shed).weigh.holding = some ⟨-8388608, 9000⟩
    ∧ (after (.sampleWord (⟨true, true⟩ :: List.replicate 22 ⟨false, false⟩)) shed).weigh.holding = none
    ∧ (after .goodSample (holding 8388592)).weigh.reading = none
    ∧ (after .goodSample (holding (-8388592))).weigh.saturatedSince = some 9000
    ∧ (after .goodSample (holding 8388591)).weigh.reading = some ⟨2097148, 209715, true⟩
    ∧ (after .goodSample (holding 400)).weigh.reading = some ⟨100, 10, false⟩
    ∧ (after .goodSample (holding 100)).weigh.steady = true ∧ (after .goodSample (holding 110)).weigh.steady = false
    ∧ (after .sampleLoss shed).books.time = 9040 ∧ (after .sampleLoss shed).books.station = .halt := by decide +kernel

theorem test_witness_SettlesReachTheirRequester :
    (let s := asked .capture 500 ⟨2000, 200, false⟩;
      s.weigh.request = some ⟨.capture, 9000, false⟩ ∧ s.weigh.reading = some ⟨2000, 200, false⟩ ∧ s.weigh.steady = true
        ∧ s.weigh.settleTime - s.weigh.timer = 0)
    ∧ ((asked .fill 499 ⟨0, 0, false⟩).weigh.request = some ⟨.fill, 9000, false⟩
      ∧ (asked .fill 499 ⟨0, 0, false⟩).weigh.settleTime - 499 = 1)
    ∧ ((asked .zeroScale 0 ⟨-2000, -200, false⟩).port.command = some 0x33
      ∧ (asked .zeroScale 0 ⟨-2010, -201, false⟩).weigh.reading = some ⟨-2010, -201, false⟩)
    ∧ (⟨.fill, 9000, false⟩ : SettleRequest).slow = false := by decide +kernel

/-- A capture and ZERO SCALE at the band's edge and beyond it; SETTLE_SLOW. -/
theorem test_settles :
    let clear (r : Reading) : State := { asked .capture 0 r with filler := { shed.filler with step := .clear } }
    (after .settleComplete (clear ⟨2000, 200, false⟩)).weigh.scale = some { scale0 with zero := 2000 }
    ∧ (after .settleComplete (clear ⟨2000, 200, false⟩)).filler.step = .idle
    ∧ (after .settleComplete (clear ⟨2010, 201, false⟩)).weigh.scale = some scale0
    ∧ (after .settleComplete (clear ⟨2010, 201, false⟩)).books.faults.map (·.code) = [.zeroDrift]
    ∧ (after .settleComplete (asked .zeroScale 0 ⟨-2000, -200, false⟩)).port.reply
      = some ⟨0x33, .ok, [255, 248, 48, 255, 255, 56]⟩
    ∧ (after .settleComplete (asked .zeroScale 0 ⟨-2010, -201, false⟩)).port.reply = some ⟨0x33, .range, [255, 255, 55]⟩
    ∧ (after .settleSlow (asked .fill 0 ⟨0, 0, false⟩)).books.faults = [⟨.settleSlow, 1, .present, 14000, 14000⟩] := by
  decide +kernel

/-! ### Witnesses: the lane -/

/-- `laneAt` with the reading OVER or not, and a gate. -/
def gated (step : FillStep) (f : Fill) (g : Gate) (w : Int) (isOver : Bool) : State :=
  let s := laneAt step f w
  { s with
    filler := { s.filler with gate := g, flow := some ⟨0, 100⟩ },
    weigh := { s.weigh with reading := some ⟨w * 10, w, isOver⟩ } }

theorem test_witness_FeedsFollowTheNet :
    (let s := laneAt (.feed 1) fill7 3250;
      s.filler.fill = some fill7 ∧ fill7.comps[1 - 1]? = some comp1 ∧ s.weigh.reading = some ⟨32500, 3250, false⟩
        ∧ fill7.tare = some 300 ∧ comp1.fineCut.getD 0 ≤ (3250 : Int) - 300)
    ∧ ((3249 : Int) - 300 < comp1.fineCut.getD 0 ∧ (3099 : Int) - 300 < comp1.coarseCut.getD 0)
    ∧ ({ laneAt (.feed 1) fill7 0 with weigh := Weigh.reset } : State).weigh.reading = none
    ∧ (let s := gated (.feed 1) fill7 (.coarse 1) 20001 true;
      s.filler.step = .feed 1 ∧ s.filler.fill = some fill7 ∧ s.pins.hold = false ∧ s.filler.gate ≠ .closed
        ∧ s.weigh.reading = some ⟨200010, 20001, true⟩)
    ∧ (let s : State := { laneAt (.feed 1) fill7 300 with pins := ⟨true, true⟩ }; s.pins.hold = true)
    ∧ (shed.weigh.reading = some ⟨0, 0, false⟩ ∧ shed.filler.fill = none ∧ shed.filler.step = .idle) := by decide +kernel

/-- Chest Fill Sequence, the first example: the gate at the cutoffs of FEED(1), coarse, fine and closed. -/
theorem test_feed_gates :
    let s (w : Int) : State := (laneAt (.feed 1) fill7 w).readingUpdate
    (s 3099).filler.gate = .coarse 1 ∧ (s 3100).filler.gate = .fine 1 ∧ (s 3249).filler.gate = .fine 1
    ∧ (s 3250).filler.gate = .closed ∧ (s 3250).filler.step = .settle 1
    ∧ (s 3250).weigh.request = some ⟨.fill, 9000, false⟩
    ∧ (gated (.feed 1) fill7 (.coarse 1) 20001 true).readingUpdate.filler.step = .reject := by decide +kernel

theorem test_witness_SettledReadingsAreJudged :
    (let s := laneAt .tare { fill7 with tare := none } 900;
      (∃ f ∈ s.filler.fill, f.tareMin ≤ 900 ∧ 900 ≤ f.tareMax ∧ 99 < f.tareMin ∧ f.tareMax < 901) ∧ s.filler.step = .tare)
    ∧ (let c : CompState := { comp1 with opened := true };
      let f : Fill := { fill7 with comps := [c, comp2] };
      let s := laneAt (.settle 1) f 3500;
      s.filler.fill = some f ∧ s.filler.step = .settle 1 ∧ f.comps[1 - 1]? = some c ∧ f.tare = some 300
        ∧ ((3500 : Int) - 300 - c.cumulative = 200) ∧ c.opened = true ∧ c.short = false)
    ∧ ((3501 : Int) - 300 - comp1.cumulative = 201 ∧ comp1.opened = false)
    ∧ (let f : Fill := { fill7 with topupComp := some 1, netBefore := some 4900, topupDone := true };
      let s := laneAt .topup f 5290;
      s.filler.fill = some f ∧ s.filler.step = .topup ∧ f.topupComp = some 1 ∧ f.netBefore = some 4900)
    ∧ ((fill7.target : Int) + fill7.tolerance < 5021 ∧ (fill7.target : Int) - fill7.tolerance ≤ 4980
      ∧ (4979 : Int) < fill7.target - fill7.tolerance ∧ fill7.topupDone = false)
    ∧ (let b := (bins ⟨.empty, some 1, some 0, 0⟩ (stocked 5)).books;
      (b.bin 1).state = .empty ∧ (b.bin 2).state ≠ .empty
        ∧ fill7.recipe = [⟨1, 600⟩] ++ (⟨2, 400⟩ : Component) :: []) := by decide +kernel

/-- A tare at and beyond its window; SETTLE(1) adapts at an error of 200 and tells of 201; CHECK at its bounds. -/
theorem test_settled_readings :
    ((laneAt .tare fill7 900).fillSettled ⟨9000, 900, false⟩).filler.step = .feed 1
    ∧ ((laneAt .tare fill7 901).fillSettled ⟨9010, 901, false⟩).filler.step = .reject
    ∧ (let c : CompState := { comp1 with opened := true };
      let s := laneAt (.settle 1) { fill7 with comps := [c, comp2] } 3500;
      (s.fillSettled ⟨35000, 3500, false⟩).inflight 1 = 100 ∧ (s.fillSettled ⟨35010, 3501, false⟩).inflight 1 = 50
        ∧ (s.fillSettled ⟨35010, 3501, false⟩).books.notices = [⟨.wildFill, 9000, some 7, none, some 1⟩])
    ∧ ((laneAt (.settle 2) fill7 5320).check 5020).filler.step = .clear
    ∧ ((laneAt (.settle 2) fill7 5321).check 5021).filler.fill.map (·.reason) = some (some .overweight)
    ∧ ((laneAt (.settle 2) fill7 5279).check 4979).filler.step = .topup := by decide +kernel

/-- The chest in progress after its component actuals of 3,004 and 2,002, with net 5,006. -/
def done7 : Fill :=
  { fill7 with comps := [{ comp1 with actual := 3004, opened := true }, { comp2 with actual := 2002, opened := true }],
               net := some 5006 }

theorem test_witness_AcceptGivesTheLowestSerial :
    ((laneAt .check done7 5306).filler.fill = some done7 ∧ done7.tare = some 300 ∧ done7.net = some 5006)
    ∧ (shed.books.invoice? done7.invoice = some invoice7 ∧ invoice7.state ≠ .closed ∧ invoice7.free = 3 :: [4])
    ∧ shed.marker.head = none ∧ headed.marker.head ≠ none
    ∧ (∃ r ∈ (shed7 (fun r => { r with free := [] })).books.invoice? 7, r.free = [] ∧ r.state ≠ .closed)
    ∧ (∃ r ∈ (shed7 (fun r => { r with state := .closed })).books.invoice? 7, r.state = .closed)
    ∧ (shedWith (fun b => { b with invoices := [] })).books.invoice? 7 = none
    ∧ done7.freed = false ∧ ({ done7 with freed := true } : Fill).freed = true
    ∧ (headed.marker.head = some ⟨false, false⟩ ∧ headed.books.invoice? 7 = some invoice7
      ∧ headed.books.chest? 7 1 = some own1) := by decide +kernel

/-- ACCEPT: serial 3, the record, its frames, and CLEAR without a head. -/
theorem test_accept :
    let t := (laneAt .check done7 5306).accept
    t.filler.step = .clear ∧ (t.books.invoice? 7).map (·.free) = some [4] ∧ t.books.reservation = none
    ∧ t.books.tx = [waiting (.chest 7 ⟨3, 531, 30, 501, 0, [⟨1, 300⟩, ⟨2, 200⟩]⟩), waiting (.mark 7 3 4)]
    ∧ (t.books.chest? 7 3).map (fun c => (c.origin, c.gross, c.mark)) = some (.own, 531, .none) := by decide +kernel

theorem test_witness_NoFlowAndTheRejectPulse :
    (let s := gated (.feed 1) fill7 (.fine 1) 2000 false;
      s.filler.flow = some ⟨0, 100⟩ ∧ s.filler.gate ≠ .closed ∧ s.filler.step = .feed 1 ∧ s.filler.fill = some fill7
        ∧ fill7.comps[1 - 1]? = some comp1 ∧ fill7.recipe[1 - 1]? = some ⟨1, 600⟩)
    ∧ ((laneAt .reject fill7 0).filler.step = .reject ∧ (laneAt .reject fill7 0).pins.hold = false) := by decide +kernel

/-- No flow: an UNKNOWN bin goes EMPTY, the frame is queued, and 1,400 ms have passed; the reject pulse's end. -/
theorem test_no_flow_and_reject_end :
    let t := after .noFlow (gated (.feed 1) fill7 (.fine 1) 2000 false)
    t.books.time = 10400 ∧ t.filler.step = .settle 1 ∧ t.books.bin 1 = ⟨.empty, some 0, some 0, 0⟩
    ∧ t.books.tx = [waiting (.bin 0 1 2 0 0)] ∧ t.filler.fill.map (fun f => f.comps.map (·.short)) = some [true, false]
    ∧ (after .rejectPulseEnd (laneAt .reject fill7 0)).filler.step = .clear
    ∧ (after .rejectPulseEnd (laneAt .reject fill7 0)).books.time = 9200 := by decide +kernel

theorem test_witness_ChestAndHoldInputs :
    (let s : State := { laneAt .armed fill7 0 with pins := ⟨false, false⟩ };
      s.pins.chest ≠ true ∧ s.inReset = false ∧ s.weigh.request = none ∧ s.pins.hold = false ∧ s.filler.step = .armed)
    ∧ (let s : State := { laneAt .armed fill7 0 with pins := ⟨true, false⟩ }; s.pins.chest ≠ true ∧ s.pins.hold = true)
    ∧ (let s : State := { asked .capture 0 ⟨0, 0, false⟩ with filler := { shed.filler with step := .clear } };
      s.pins.chest ≠ true ∧ s.pins.hold = false ∧ s.filler.step = .clear
        ∧ (∃ q ∈ s.weigh.request, q.who = .capture) ∧ (∃ q ∈ s.weigh.request, q.who ≠ .zeroScale))
    ∧ ((laneAt .clear fill7 0).pins.chest ≠ false ∧ (laneAt .clear fill7 0).weigh.request = none)
    ∧ ((laneAt (.feed 2) fill7 0).pins.chest ≠ false ∧ (laneAt (.feed 2) fill7 0).filler.step = .feed 2)
    ∧ ((laneAt .mark fill7 0).pins.chest ≠ false
      ∧ (laneAt .mark fill7 0).filler.step ∈ ([.idle, .armed, .check, .accept, .reject, .mark] : List FillStep))
    ∧ (let s := asked .zeroScale 0 ⟨0, 0, false⟩;
      s.pins.chest = false ∧ s.inReset = false ∧ s.weigh.request = some ⟨.zeroScale, 9000, false⟩
        ∧ s.port.command = some 0x33 ∧ s.filler.step = .idle ∧ s.pins.hold = false)
    ∧ shed.pins.hold = false
    ∧ (let s : State := { laneAt (.feed 1) fill7 0 with pins := ⟨true, true⟩ }; s.pins.hold = true ∧ s.inReset = false)
    ∧ ({ fill7 with topupEnd := some .cutoff } : Fill).topupEnd = some .cutoff
    ∧ ({ fill7 with topupEnd := some .noFlow } : Fill).topupEnd ≠ some .cutoff := by decide +kernel

/-- CHEST rises in ARMED and falls in FEED(1). -/
theorem test_chest_edges :
    (after (.chestEdge true) { laneAt .armed fill7 0 with pins := ⟨false, false⟩ }).filler.step = .tare
    ∧ (after (.chestEdge false) (gated (.feed 1) opened7 (.fine 1) 1300 false)).filler.fill.map (·.reason)
      = some (some .chestLost)
    ∧ (after (.chestEdge true) (asked .zeroScale 0 ⟨0, 0, false⟩)).port.reply = some ⟨0x33, .busy, []⟩
    ∧ (after (.chestEdge true) { laneAt .armed fill7 0 with pins := ⟨true, false⟩ }).filler.step = .armed := by
  decide +kernel

/-- HOLD closes the gate; at its end FEED(1) opens it again. -/
theorem test_hold :
    let s := after .holdActive (gated (.feed 1) fill7 (.coarse 1) 300 false)
    s.filler.gate = .closed ∧ s.coarseOut 1 = false ∧ (gated (.feed 1) fill7 (.coarse 1) 300 false).coarseOut 1 = true
    ∧ (after .holdEnd s).filler.gate = .coarse 1 ∧ (after .holdEnd s).filler.flow = some ⟨0, 0⟩ := by decide +kernel

theorem test_witness_MarksFollowTheEncoder :
    ((marking .wait job7).marker.job = some job7 ∧ (marking .wait job7).pins.hold = false
      ∧ (marking .wait job7).marker.chain = .wait ∧ job7.position < job7.positions)
    ∧ ({ marking .wait job7 with pins := ⟨true, false⟩ } : State).pins.hold = true
    ∧ ({ job7 with position := 22 } : Job).positions ≤ ({ job7 with position := 22 } : Job).position
    ∧ ((marking .shift job7).marker.chain = .shift ∧ (marking .shift job7).marker.head = some ⟨true, false⟩
      ∧ job7.ready = none ∧ job7.late = 0)
    ∧ (let j : Job := { job7 with position := 20, late := 2 }; 0 < j.late ∧ j.position + j.late ≤ j.positions)
    ∧ (let j : Job := { job7 with position := 20, late := 3 }; 0 < j.late ∧ j.positions < j.position + j.late)
    ∧ (let s : State := { shed with marker := { Marker.reset with head := some ⟨true, true⟩, firing := some 8999 } };
      s.marker.firing = some 8999 ∧ s.marker.head = some ⟨true, true⟩)
    ∧ (shed.books.chest? 7 1 = some own1 ∧ own1.origin = .own ∧ job7.requester = .remark)
    ∧ (shed.books.chest? 7 2 = some heard2 ∧ heard2.origin = .heard) := by decide +kernel

/-- Chest Marking, the example: a pulse fires the column and starts the next SHIFT, a bounce is late, and the SHIFT's end
skips one position. -/
theorem test_encoder_pulse :
    let t := after .encoderPulse (marking .wait { job7 with position := 20 })
    t.marker.latch = 5 ∧ t.marker.firing = some 9000 ∧ t.marker.chain = .shift ∧ t.marker.job.map (·.position) = some 21
    ∧ (after .encoderPulse t).marker.job.map (fun j => (j.late, j.defect)) = some (1, true)
    ∧ (after .encoderPulse t).books.faults = [⟨.markLate, 1, .cleared, 9000, 9000⟩]
    ∧ (after (.shiftDone 0) (after .encoderPulse t)).marker.job.map (·.position) = some 22
    ∧ (after (.shiftDone 0) (after .encoderPulse t)).marker.chain = .shift
    ∧ (after .encoderPulse (marking .wait { job7 with position := 22 })).books.tx = [waiting (.mark 7 1 2)] := by
  decide +kernel

/-- The first SHIFT's nozzle check, read in the chain's order; the firing pulse's end. -/
theorem test_shift_done :
    (after (.shiftDone 0x80000000) (marking .shift job7)).marker.job.map (fun j => (j.ready, j.defect)) = some (some 1, false)
    ∧ (after (.shiftDone 1) (marking .shift job7)).marker.job.map (fun j => (j.ready, j.defect))
      = some (some 0x80000000, true)
    ∧ (after (.shiftDone 1) (marking .shift job7)).books.faults.map (·.code) = [.headNozzle]
    ∧ (after .firingPulseEnd { shed with
        marker := { Marker.reset with head := some ⟨true, true⟩, firing := some 8999 } }).marker.latch = BitVec.allOnes 32 := by
  decide +kernel

/-! ### Witnesses: shared operations -/

/-- Seven waiting entries that are no TALLY. -/
def seven : List TxEntry := List.replicate 7 (waiting (.mark 7 1 2))

theorem test_witness_QueueFrameJoinsOrDrops :
    ((shedTx (seven.drop 1)).books.tx.length < 8 ∧ (seven.drop 1).length < 7)
    ∧ ((shedTx seven).books.tx.length < 8 ∧ Frame.kind (.tally 7 ⟨1, 12, 0, 0, 0, 0, 0⟩) = 3)
    ∧ (Frame.kind (.void 7 1) ≠ 3 ∧ 7 ≤ ((shedTx seven).books.tx.filter (fun e => e.frame.kind ≠ 3)).length)
    ∧ (8 ≤ (shedTx (seven ++ seven.take 1)).books.tx.length ∧ Frame.kind (.claim 7 12 5 4) = 4) := by decide +kernel

/-- A dropped BIN frame is applied; a dropped CLAIM is not. -/
theorem test_dropped_frames :
    ((shedTx seven).books.queueFrame none (.bin 0 5 1 9 200)).bin 5 = ⟨.stocked, some 9, some 200, 0⟩
    ∧ ((shedTx seven).books.queueFrame none (.bin 0 5 1 9 200)).faults.map (·.code) = [.txQueueFull]
    ∧ ((shedTx seven).books.queueFrame none (.claim 7 12 5 4)).invoices = [invoice7] := by decide +kernel

theorem test_witness_RaisesReachTheListAndTheQueue :
    ((∀ e ∈ faulty.books.faults, e.code ≠ .markLate)
      ∧ faulty.books.faults.Pairwise (fun d e => d.code.num < e.code.num))
    ∧ (faulty.books.faults = [⟨.lineHeld, 2, .present, 1, 3⟩] ++ ⟨.viewLost, 1, .cleared, 4, 4⟩ :: [])
    ∧ (shed.books.notices.length < 32)
    ∧ (32 ≤ (shedWith (fun b => { b with notices := List.replicate 32 ⟨.online, 1, none, none, none⟩ })).books.notices.length) := by
  decide +kernel

theorem test_witness_FullAndStoreFollowTheRecords :
    (shed.books.invoice? 7 = some invoice7 ∧ invoice7.state = .active
      ∧ (∀ x ∈ shed.books.invoices, x.number = 7 → x = invoice7))
    ∧ (∃ r ∈ (closing round7).books.invoice? 7, r.state = .closing)
    ∧ (∃ r ∈ (shed7 (fun r => { r with ceiling := 2 })).books.invoice? 7, r.ceiling ≤ 2 ∧ r.full = false)
    ∧ (shedWith (fun b => { b with chests := b.chests.filter (fun x => x.key ≠ .packed 1) })).books.chests = [heard2] := by
  decide +kernel

theorem test_witness_FullAndStoreFollowTheRecords_puts :
    let b := orphaned.books
    (b.chests.Pairwise (fun x y => x.order < y.order)
      ∧ (∀ x ∈ own1 :: b.chests, (∀ k ∈ x.serial?, k ≤ 99) ∧ ∀ k ∈ x.orphan?, k ≤ 255))
    ∧ ({ own1 with key := .packed 99 } : Chest).key = .packed 99 ∧ ({ orphan5 with key := .orphan 255 } : Chest).key = .orphan 255
    ∧ ¬ (7 = heard2.invoice ∧ heard2.key = .packed 1) ∧ b.chests.length ≤ 254 := by decide +kernel

/-- A record put in the store takes the place of a HEARD one, of an OWN one and of an orphan; a new one joins in its place. -/
theorem test_put_chest :
    let b := orphaned.books
    (b.putChest { own1 with key := .packed 2 }).chests = [own1, { own1 with key := .packed 2 }, orphan5]
    ∧ (b.putChest { own1 with mark := .good }).chests = [{ own1 with mark := .good }, heard2, orphan5]
    ∧ (b.putChest { orphan5 with net := 1 }).chests = [own1, heard2, { orphan5 with net := 1 }]
    ∧ (b.putChest { own1 with key := .packed 3 }).chests = [own1, heard2, { own1 with key := .packed 3 }, orphan5] := by
  decide +kernel

/-- A reservation given up frees its slot, and clears the cause of STORE_FULL at two free slots and not at one. -/
theorem test_drop_reservation :
    let full (n : Nat) : Books := { Books.reset with
      chests := List.replicate n own1, reservation := some 1, faults := [⟨.storeFull, 1, .present, 0, 0⟩] }
    (full 254).dropReservation.faults = [⟨.storeFull, 1, .cleared, 0, 0⟩]
    ∧ (full 255).dropReservation.faults = [⟨.storeFull, 1, .present, 0, 0⟩]
    ∧ (full 255).dropReservation.reservation = none := by decide +kernel

/-- FULL sets at the ceiling, with INVOICE_FULL once. -/
theorem test_full :
    (((shed7 (fun r => { r with ceiling := 2 })).books.evalFull 7).notices = [⟨.invoiceFull, 9000, some 7, none, none⟩])
    ∧ (((shed7 (fun r => { r with ceiling := 3 })).books.evalFull 7).notices = [])
    ∧ (((shed7 (fun r => { r with ceiling := 2, full := true })).books.evalFull 7).notices = []) := by decide +kernel

theorem test_witness_BinActionsSetTheRecord :
    shed.books.lowThreshold = 100 ∧ 99 < shed.books.lowThreshold ∧ shed.books.lowThreshold ≤ 100
    ∧ (shed.books.bin 64).state = .unknown ∧ ((bins (stocked 5) (stocked 5)).books.bin 1).state ≠ .unknown := by
  decide +kernel

theorem test_witness_DrawsLowerTheBins :
    (shed.books.bin 64).state = .unknown
    ∧ ((bins ⟨.empty, some 1, some 0, 0⟩ (stocked 5)).books.bin 1).state = .empty
    ∧ (((bins (stocked 200) (stocked 199)).books.bin 1).remaining = some 200
      ∧ (bins (stocked 200) (stocked 199)).books.lowThreshold ≤ 200 - 100
      ∧ 199 - 100 < (bins (stocked 200) (stocked 199)).books.lowThreshold)
    ∧ ((bins ⟨.withdrawn, some 1, some 4, 65535⟩ ⟨.low, some 1, some 4, 65535⟩).books.bin 2).state = .low
    ∧ ((bins ⟨.withdrawn, some 1, some 4, 65535⟩ ⟨.low, some 1, some 4, 65535⟩).books.bin 1).remaining = some 4 := by
  decide +kernel

theorem test_witness_TargetsSumAndAdaptationIsBounded :
    ((([⟨1, 999⟩] : List Component) ++ ([⟨2, 1⟩] : List Component)).map (fun c => c.share)).sum ≤ 1000
    ∧ (4 * (1 : Int) - 2 = 2 ∧ (0 : Int) < 2) ∧ (4 * (-1 : Int) + 2 = -2 ∧ (-2 : Int) < 0)
    ∧ (4 * (50 : Int) = 200) ∧ (4 * (0 : Int) - 1 = -1) ∧ (4 * (0 : Int) + 1 = 1) := by decide

/-- Halves: up for document weights, away from zero for counts and errors, by an even and an odd divisor. -/
theorem test_rounding :
    (roundHalfUp 4 10, roundHalfUp 5 10, roundHalfUp 14 10, roundHalfUp 15 10) = (0, 1, 1, 2)
    ∧ (roundHalfUp 3 7, roundHalfUp 4 7) = (0, 1)
    ∧ (roundHalfAway 5 10, roundHalfAway 4 10, roundHalfAway (-4) 10, roundHalfAway (-5) 10) = (1, 0, 0, -1)
    ∧ (roundHalfAway (-3) 7, roundHalfAway (-4) 7, roundHalfAway 0 7) = (0, -1, 0) := by decide +kernel

theorem test_witness_SevereFaultsHaltTheLane :
    (faulty.books.station = .online ∧ State.reset.books.station ≠ .online)
    ∧ ((laneAt (.feed 1) opened7 1300).books.station = .online)
    ∧ ((configured .idle).weigh.lossFound = false ∧ (configured .idle).saturationDue = false)
    ∧ (let s : State := { shed with weigh := { shed.weigh with saturatedSince := some 8000 } };
      s.weigh.saturationRaised = false ∧ s.saturationDue = true) := by decide +kernel

/-- Faults, the example: sample loss in a fill with a waiting CLAIM. -/
theorem test_halt_in_a_fill :
    let s : State := laneAt (.feed 1) opened7 1300
    let t := after .sampleLoss { s with books := { s.books with tx := [heldClaim] } }
    t.books.station = .halt ∧ t.filler.step = .reject
    ∧ t.books.tx = [waiting (.chest 7 ⟨0, 0, 0, 0, 0, [⟨1, 100⟩, ⟨2, 0⟩]⟩)]
    ∧ t.books.notices = [⟨.chestRejected, 9040, some 7, none, some 6⟩] ∧ (t.books.invoice? 7).map (·.free) = some [3, 4] := by
  decide +kernel

/-- Reset: BUSY with everything empty; bad straps put the station OFFLINE as reset ends. -/
theorem test_reset :
    (after .reset shed).books.invoices = [] ∧ (after .reset shed).port.busy = true ∧ (after .reset shed).inReset = true
    ∧ (after (.resetStation ⟨[], []⟩) shed).inReset = true
    ∧ (after (.resetEnd 0 1) (after .reset shed)).books.station = .offline
    ∧ (after (.resetEnd 31 2) (after .reset shed)).books.straps = ⟨31, 2⟩
    ∧ (after (.resetEnd 31 3) (after .reset shed)).books.faults = [⟨.strapInvalid, 1, .present, 0, 0⟩] := by decide +kernel

/-- The response reaches the buffer; an unknown code is told of. -/
theorem test_response_ready :
    let t := after (.unknownCommand 0x03 ⟨[], []⟩) shed
    t.port.busy = true ∧ (after .responseReady t).port.buffer = some ⟨0x03, .unknownCommand, []⟩
    ∧ (after .responseReady t).port.ready = true ∧ (after .responseReady t).port.busy = false := by decide +kernel

theorem test_witness_FramesReadBack :
    Frame.inRange 31 (.chest 9999 ⟨99, 65535, 1, 65534, 1, List.replicate 4 ⟨64, 65535⟩⟩) = true
    ∧ Frame.inRange 1 (.bin 0 1 1 0 0) = true ∧ Frame.inRange 16 (.closed 1 1 0 0 16777215) = true
    ∧ Frame.inRange 1 (.claim 1 1 99 1) = true := by decide +kernel

/-- The ten kinds read back from their characters, one frame of each. -/
theorem test_frames_read_back :
    ∀ f ∈ ([.closeCall 9999 2 99 1, .closed 300 3 0 99 16777215, .tally 1 ⟨2, 99, 0, 99, 16, 1, 16777214⟩,
        .claim 4660 99 92 8, .void 257 99, .chest 5000 ⟨99, 65535, 5, 65530, 1, [⟨64, 65535⟩, ⟨1, 0⟩]⟩, .sample 77 1 50,
        .mark 77 99 4, .bin 0 64 3 65535 65535, .census 9999 99] : List Frame),
      judge (fun _ => true) (frameChars 19 f) = .taken 19 f := by decide +kernel

theorem test_witness_GatesStaySafe :
    (gated (.feed 1) fill7 (.coarse 1) 300 false).gatesSafe
    ∧ (gated (.feed 1) fill7 (.coarse 1) 300 false).filler.gate.isOpen = true
    ∧ step (gated (.feed 1) fill7 (.coarse 1) 300 false) = .next (gated (.feed 1) fill7 (.coarse 1) 300 false).idleTick := by
  refine ⟨?_, by decide +kernel, ?_⟩
  · unfold State.gatesSafe State.stationLaw State.gateLaw; decide +kernel
  · rfl

theorem test_witness_TablesStayLawful :
    shed.books.lawful ∧ shed.books.invoiceLaw ∧ shed.inflightLaw ∧ step shed = .next shed.idleTick := by
  refine ⟨?_, ?_, ?_, by rfl⟩
  · unfold Books.lawful Books.queueLaw Books.noticeLaw Books.faultLaw; decide +kernel
  · unfold Books.invoiceLaw Invoice.freeLaw; decide +kernel
  · unfold State.inflightLaw; decide +kernel

/-! ### Witnesses of the clauses about single operations and about entries with a removal due -/

theorem test_witness_ResetEndReadsTheStraps_clauses :
    (after .reset shed).inReset = true ∧ ((1 : BitVec 5) ≠ 0 ∧ (2 : BitVec 2) ≠ 3) ∧ ((0 : BitVec 5) = 0)
    ∧ ((31 : BitVec 5) ≠ 0 ∧ (3 : BitVec 2) = 3) ∧ shed.inReset = false := by decide +kernel

/-- `shed` CONFIGURED with a saturation run of 1,000 ms. -/
def saturated : State :=
  { configured .idle with weigh := { shed.weigh with saturatedSince := some 8000 } }

theorem test_witness_GoOnlineAtAnIdleLine_saturation :
    saturated.admits 0x02 ⟨[], []⟩ ∧ saturated.books.onlineWait = false ∧ saturated.line.level = .idle
    ∧ saturated.weigh.lossFound = false ∧ saturated.saturationDue = true
    ∧ ({ saturated with weigh := { shed.weigh with saturatedSince := some 8001 } } : State).saturationDue = false := by
  decide +kernel

/-- GO ONLINE in a saturation run: HALT at once, with the run raised. -/
theorem test_go_online_saturated :
    (after (.goOnline ⟨[], []⟩) saturated).books.station = .halt
    ∧ (after (.goOnline ⟨[], []⟩) saturated).books.faults = [⟨.scaleSaturated, 1, .present, 9000, 9000⟩] := by decide +kernel

theorem test_witness_ReservationsBinAndClaimChecks_orphans :
    (let b : Books := { shed.books with reservationCounter := 4, chests := [orphan5] };
      1 ≤ b.freeSlots ∧ b.reservationCounter ≤ 255 ∧ 1 < 255
        ∧ (∀ i < 1, ∃ c ∈ b.chests, c.key = .orphan ((b.reservationCounter + i) % 255 + 1))
        ∧ (∀ c ∈ b.chests, c.key ≠ .orphan ((b.reservationCounter + 1) % 255 + 1)))
    ∧ (let b : Books := { shed.books with reservationCounter := 255 };
      b.reservationCounter ≤ 255 ∧ (∀ c ∈ b.chests, c.key ≠ .orphan ((b.reservationCounter + 0) % 255 + 1)))
    ∧ (let b : Books := { shed.books with
          chests := (List.range' 1 255).map (fun k => { orphan5 with key := .orphan k }) };
      (List.range' 1 255).all (fun k => b.chests.any (fun c => c.key = .orphan k)) = true ∧ b.reservable = none) := by
  decide +kernel

theorem test_witness_LaneCutsRejectsAndClears_told :
    (FillStep.armed ∈ ([.idle, .armed, .tare, .check, .accept, .reject, .mark, .clear] : List FillStep))
    ∧ (shed.pins.hold = false ∧ ({ shed with pins := ⟨true, false⟩ } : State).pins.hold = true)
    ∧ (shed.books.invoice? 8 = none ∧ shed.books.invoice? 7 = some invoice7 ∧ invoice7.state ≠ .closing)
    ∧ (∃ r ∈ (closing round7).books.invoice? 7, r.state = .closing ∧ r.role = some .closer)
    ∧ (∃ r ∈ (shed7 (fun r => { r with state := .closing, role := some .peer })).books.invoice? 7,
        r.state = .closing ∧ r.role = some .peer)
    ∧ (∃ r ∈ (shed7 (fun r => { r with state := .closing, role := none })).books.invoice? 7, r.role = none) := by
  decide +kernel

/-- A fill ended without a serial: a peer answers afresh, the serial kept being surrendered; a closer's own entry is
counted afresh. -/
theorem test_fill_lost :
    ((shed7 (fun r => { r with state := .closing, role := some .peer, free := [4] })).books.fillLost 7).tx
      = [waiting (.tally 7 ⟨2, 12, 4, 1, 1, 0, 500⟩)]
    ∧ (((closing { round7 with answers := [⟨1, 1, 0, 0, 0⟩] }).books.fillLost 7).round? 7).map (·.answers)
      = some [⟨1, 0, 1, 0, 500⟩] := by decide +kernel

theorem test_witness_RemarkStartsAMark_text :
    ((9 : Nat) < 10 ∧ 1 ≤ 999999 ∧ 999999 < 1000000)
    ∧ ((0x30, [14, 17, 19, 21, 25, 17, 14]) ∈ ([(0x30, [14, 17, 19, 21, 25, 17, 14])] : List (Byte × List Nat)))
    ∧ (columnOf job7 9).getLsbD (2 - 1) = false ∧ (columnOf job7 1).getLsbD (4 - 1) = true
    ∧ (columnOf job7 10).getLsbD (32 - 1) = false ∧ (columnOf job7 11) = 0
    ∧ (nozzleSet (markUses [0x2D] [0x2E])).getLsbD (30 - 1) = true := by decide +kernel

theorem test_witness_LineStatesFollowTheRuns_starts :
    (shed.line.level = .idle ∧ 3 ≤ ({ shed.line with recessiveRun := 0 } : Line).recessiveRun + 3)
    ∧ ({ shed.line with recessiveRun := 0 } : Line).recessiveRun + 2 < 3
    ∧ (levelOf (0 : BitVec 11) = false ∧ levelOf (0x600 : BitVec 11) = true ∧ (0x600 : BitVec 11).getLsbD 0 = false)
    ∧ listening.line.level ≠ .idle := by decide +kernel

/-- Two recessive samples are no hunt; three are; a false start leaves the line IDLE with its runs moved. -/
theorem test_starts :
    let s : State := { shed with line := { shed.line with recessiveRun := 0 } }
    (after (.startConfirmed (List.replicate 2 true ++ List.replicate 11 false)) s).line.level = .idle
    ∧ (after (.startConfirmed (List.replicate 3 true ++ List.replicate 11 false)) s).line.level = .busy
    ∧ (after (.startConfirmed (samplesOf (0x600 : BitVec 11))) shed).line.recessiveRun = 2
    ∧ (after (.startConfirmed (samplesOf (0x5FE : BitVec 11))) shed).line.recessiveRun = 1 := by decide +kernel

/-- A candidate in check over two rows lets no frame begin (R10); its last ticks confirm it, or show a false start, after
which a frame may begin. -/
theorem test_candidate :
    let s := shedTx [waiting (.mark 7 1 2)]
    let t := after (.startConfirmed (List.replicate 6 false)) s
    t.line.level = .idle ∧ t.line.candidate = List.replicate 6 false
    ∧ after .beginFrame t = t
    ∧ (after .beginFrame s).line.role = .sender
    ∧ (after (.startConfirmed [false, false]) t).line.candidate = List.replicate 8 false
    ∧ (after (.startConfirmed (List.replicate 5 false)) t).line.role = .receiver true
    ∧ (after (.startConfirmed (List.replicate 5 false)) t).line.candidate = []
    ∧ (after (.startConfirmed (List.replicate 5 true)) t).line.level = .idle
    ∧ (after .beginFrame (after (.startConfirmed (List.replicate 5 true)) t)).line.role = .sender
    ∧ (after (.startConfirmed (List.replicate 300 false)) s).line.role = .receiver true := by decide +kernel

theorem test_witness_LineStatesFollowTheRuns_candidates :
    let s : State := { shed with line := { shed.line with candidate := List.replicate 10 false } }
    (shed.line.candidate = [] ∧ ([] : List Bool).head? ≠ some true ∧ ([false, true] : List Bool).head? ≠ some true
      ∧ 3 ≤ shed.line.recessiveRun + 0)
    ∧ (s.line.level = .idle ∧ s.line.candidate ≠ []
      ∧ s.line.candidate ++ [false] = (List.range 11).map (fun i => (0 : BitVec 11).getLsbD i) ∧ levelOf (0 : BitVec 11) = false)
    ∧ (let t : State := { shed with line := { shed.line with candidate := [false] } };
      t.line.candidate ++ List.replicate 10 true = (List.range 11).map (fun i => (0x7FE : BitVec 11).getLsbD i)
        ∧ levelOf (0x7FE : BitVec 11) = true ∧ t.line.candidate.length + 9 ≤ 10) := by decide +kernel

/-- `shed` while it sends a CLAIM of 5 to 8 with the attempts and the removal given. -/
def sendingClaim (attempts : Nat) (removal : Removal) : State :=
  { senderOfFrame (.claim 7 12 5 4) with
    books := { shed.books with tx :=
      [{ sendingEntry (.claim 7 12 5 4) with attempts := attempts, removal := removal }, waiting (.mark 7 1 2)] } }

theorem test_witness_ArbitrationLostMakesAReceiver_removals :
    (let s := sendingClaim 1 .apply;
      s.line.role = .sender
        ∧ s.books.tx = [] ++ { sendingEntry (.claim 7 12 5 4) with attempts := 1, removal := .apply } :: [waiting (.mark 7 1 2)]
        ∧ (∀ x ∈ ([] : List TxEntry) ++ [waiting (.mark 7 1 2)], x.underWay = false) ∧ levelOf (0 : BitVec 11) = false
        ∧ ((frameChars 1 (.claim 7 12 5 4))[2 - 1]?.bind (fun c => (RxChar.bits c)[11 - 1]?)) = some true)
    ∧ (sendingClaim 0 .discard).line.role = .sender ∧ (sendingClaim 0 .apply).line.role = .sender := by decide +kernel

/-- A loss when the removal has fallen due: the entry leaves, a CLAIM with an attempt applied unless it is discarded. -/
theorem test_arbitration_lost_removed :
    let claimed (s : State) := (after (.arbitrationLost 2 ⟨9, 0⟩) s).books
    ((claimed (sendingClaim 1 .apply)).tx, (claimed (sendingClaim 1 .apply)).freeOf 7)
      = ([waiting (.mark 7 1 2)], [3, 4, 5, 6, 7, 8])
    ∧ ((claimed (sendingClaim 0 .apply)).tx, (claimed (sendingClaim 0 .apply)).freeOf 7) = ([waiting (.mark 7 1 2)], [3, 4])
    ∧ ((claimed (sendingClaim 1 .discard)).tx, (claimed (sendingClaim 1 .discard)).freeOf 7)
      = ([waiting (.mark 7 1 2)], [3, 4]) := by decide +kernel

theorem test_witness_ArbitrationLostMakesAReceiver_offline :
    ((shedWith (fun b => { b with station := .offline })).books.station = .offline ∧ shed.books.station ≠ .offline
      ∧ shed.filler.fill = none)
    ∧ ((laneAt (.feed 1) opened7 1300).filler.fill = some opened7 ∧ (∃ x ∈ opened7.comps, x.opened = true)
      ∧ (laneAt (.feed 1) opened7 1300).filler.step ∉ ([.idle, .accept, .reject, .mark, .clear] : List FillStep))
    ∧ ((laneAt .check fill7 0).filler.fill = some fill7 ∧ (∀ x ∈ fill7.comps, x.opened = false)
      ∧ (laneAt .check fill7 0).filler.step ∉ ([.idle, .accept, .reject, .mark, .clear] : List FillStep))
    ∧ ((laneAt .clear fill7 0).filler.step ∈ ([.idle, .accept, .reject, .mark, .clear] : List FillStep))
    ∧ (marking .wait job7).marker.chain ≠ .shift
    ∧ ((asked .zeroScale 0 ⟨0, 0, false⟩).weigh.request = some ⟨.zeroScale, 9000, false⟩
      ∧ (asked .zeroScale 0 ⟨0, 0, false⟩).port.command = some 0x33)
    ∧ (∀ q ∈ (asked .fill 0 ⟨0, 0, false⟩).weigh.request, q.who ≠ .zeroScale) := by decide +kernel

/-- OFFLINE cuts a fill with its report, ends a mark without a status, and answers a waiting ZERO SCALE NOT_STEADY. -/
theorem test_offline :
    let t := (laneAt (.feed 1) opened7 1300).raiseOffline .stationClash
    t.books.station = .offline ∧ t.filler.step = .idle ∧ t.books.reservation = none
    ∧ t.books.tx = [waiting (.chest 7 ⟨0, 0, 0, 0, 0, [⟨1, 100⟩, ⟨2, 0⟩]⟩)]
    ∧ t.books.notices = [⟨.chestRejected, 9000, some 7, none, some 6⟩]
    ∧ ((marking .wait job7).raiseOffline .stationClash).books.notices = []
    ∧ ((marking .wait job7).raiseOffline .stationClash).marker.job = none
    ∧ ((asked .zeroScale 0 ⟨0, 0, false⟩).raiseOffline .stationClash).port.reply = some ⟨0x33, .notSteady, []⟩ := by
  decide +kernel

theorem test_witness_AttemptsAreJudgedAndApplied_clauses :
    ((sendingClaim 0 .none).line.role = .sender ∧ (!levelOf (0 : BitVec 16)) = true
      ∧ (!levelOf (0xFFFF : BitVec 16)) = false
      ∧ (sendingClaim 3 .apply).books.tx
        = [] ++ { sendingEntry (.claim 7 12 5 4) with attempts := 3, removal := .apply } :: [waiting (.mark 7 1 2)])
    ∧ ((sendingClaim 0 .discard).line.role = .sender ∧ (sendingClaim 0 .none).books.station = .online)
    ∧ (∀ e ∈ shed.books.tx, e.underWay = false)
    ∧ (shed.books.invoice? 7 = some invoice7 ∧ invoice7.state = .active ∧ shed.books.invoice? 8 = none)
    ∧ (let b := (shed7 (fun r => { r with state := .closing, free := [] })).books;
      ∃ r ∈ b.invoice? 7, r.state = .closing ∧ r.free = [])
    ∧ (∃ r ∈ (shed7 (fun r => { r with state := .closed })).books.invoice? 7, r.state = .closed)
    ∧ (∃ r ∈ (shed7 (fun r => { r with state := .closing })).books.invoice? 7, r.state = .closing ∧ r.free ≠ []) := by
  decide +kernel

/-- A removal that fell due at an attempt's end: applied, or discarded with nothing of the CLAIM noted. -/
theorem test_attempt_end_removed :
    let t (r : Removal) := (after (.attemptEnd 0 0xFFFF) (sendingClaim 0 r)).books
    (t .apply).freeOf 7 = [3, 4, 5, 6, 7, 8] ∧ (t .apply).tx = [waiting (.mark 7 1 2)]
    ∧ (t .discard).invoices = [invoice7] ∧ (t .discard).tx = [waiting (.mark 7 1 2)] := by decide +kernel

/-- An own CLAIM applied in CLOSING: a fill without a serial keeps the lowest, the rest is surrendered. -/
theorem test_claim_applied_in_closing :
    let b := (shed7 (fun r => { r with state := .closing, role := some .peer, free := [] })).books
    ((b.applyOwnClaim (some 7) 7 5 4).invoice? 7).map (fun r => (r.free, r.surrendered)) = some ([5], 3)
    ∧ ((b.applyOwnClaim none 7 5 4).invoice? 7).map (fun r => (r.free, r.surrendered)) = some ([], 4)
    ∧ ((b.applyOwnClaim none 7 12 4).invoice? 7).map (fun r => (r.free, r.surrendered, r.high)) = some ([], 1, 15) := by
  decide +kernel

/-- An own CLOSE CALL leaves: CLOSING as CLOSER with the window 150 ms on and this station's own answer. -/
theorem test_call_leaves :
    let b := shed.books.callLeaves none 7 1
    (b.invoice? 7).map (fun r => (r.state, r.role, r.free, r.surrendered)) = some (.closing, some .closer, [], 2)
    ∧ b.round? 7 = some ⟨7, 1, .window 9150, 0, [⟨1, 0, 1, 2, 500⟩]⟩
    ∧ ((closing { round7 with number := 2, phase := .callQueued }).books.callLeaves none 7 2).round? 7
      = some { round7 with number := 2, phase := .window 9150 } := by decide +kernel

theorem test_witness_FramesNotTakenAreGivenUp_verdicts :
    ((mirror (mirror 6)).toNat = 6
      ∧ ((frameChars 3 (.chest 7 ⟨0, 0, 0, 0, 0, [⟨1, 0⟩]⟩)).modify 12 (fun c => { c with mark := true }))[12]?
        = some ⟨1, true, true⟩)
    ∧ (((frameChars 3 (.chest 7 ⟨0, 0, 0, 0, 0, [⟨1, 0⟩]⟩)).drop 1)[11]? = some ⟨1, false, true⟩)
    ∧ (let cs := (frameChars 3 (.census 7 12)).modify 6 (fun c => { c with mark := true });
      cs.length = 6 + bodyLength 10 0 ∧ cs.head? = some (head (mirror 10)) ∧ (mirror (mirror 10)).toNat = 10
        ∧ cs[6]?.map (·.mark) = some true)
    ∧ (let p := (frameChars 3 (.census 7 0)).map (·.data);
      readFrame (p.take (p.length - 2)) = some (.census 7 0) ∧ Frame.inRange 3 (.census 7 0) = false)
    ∧ (let p := damaged.map (·.data); (crc (p.take (p.length - 2))).toNat ≠ num2 p (p.length - 2)) := by decide +kernel

theorem test_witness_FramesNotTakenAreGivenUp_rows :
    (listening.line.role = .receiver true ∧ listening.line.assembler.agrees damaged = true
      ∧ assembled (onLine damaged) = damaged ∧ listening.judged damaged ≠ .naked)
    ∧ ((passedHeader damaged).line.assembler.agrees damaged = true
      ∧ 4 ≤ (passedHeader damaged).line.assembler.chars.length
      ∧ (passedHeader damaged).line.assembler.agrees (frameChars 3 (.census 8 12)) = false)
    ∧ (judge listening.books.hasInvoice ((frameChars 3 (.census 7 12)).take 4) = .unfinished)
    ∧ ((passedHeader damaged).line.assembler.agrees damaged = true ∧ (passedHeader damaged).judged damaged = .naked)
    ∧ (let s : State := { listening with line := { listening.line with role := .receiver false } };
      s.hears = false ∧ judge s.books.hasInvoice ((frameChars 3 (.census 8 12)).take 4) = .filtered)
    ∧ (shed.line.role = .none ∧ (sendingClaim 0 .none).line.role = .sender)
    ∧ (listening.line.assembler.agrees (frameChars 3 (.census 8 12)) = true ∧ Frame.kind (.census 8 12) = 10
      ∧ listening.books.hasInvoice 8 = false ∧ Frame.inRange 3 (.census 7 0) = false ∧ listening.books.hasInvoice 7 = true) := by
  decide +kernel

/-- The invoice table as it stands at the end of H4 filters a frame, not as it stands before or after (R15, R16, R19): a
record freed after H4 leaves the frame acknowledged, or NAKed when damaged; one opened after H4 does not bring the frame
back; one freed before H4 does; and till the end of H4 no frame of a filtered kind is over. -/
theorem test_filter_at_H4 :
    let passing := Instr.frameFiltered (onLine ((frameChars 3 (.census 7 12)).take 4))
    let other := Instr.frameFiltered (onLine ((frameChars 3 (.census 8 12)).take 4))
    let free := fun s : State => { s with books := { s.books with invoices := [] } }
    let add := fun s : State => { s with books := { s.books with invoices := [invoice7, { invoice7 with number := 8 }] } }
    (after (.censusFrame (from_ 3) 7 12) (free (after passing listening))).line.slot = .ack
    ∧ (after (.censusFrame (from_ 3) 7 12) (free (after passing listening))).books.tx = []
    ∧ (after (.frameNaked ⟨onLine damaged, quiet⟩) (free (after passing listening))).line.slot = .nak
    ∧ after (.censusFrame (from_ 3) 8 12) (add (after other listening)) = add (after other listening)
    ∧ (after passing (free listening)).line.role = .none
    ∧ (after other (add listening)).line.role = .receiver true
    ∧ after (.censusFrame (from_ 3) 7 12) listening = listening
    ∧ after (.frameNaked ⟨onLine damaged, quiet⟩) listening = listening := by decide +kernel

/-- A character may come late, but not after the line has become IDLE (R4). -/
theorem test_gap_in_a_frame :
    let late := fun n => onLine (damaged.take 6) ++ List.replicate n true ++ onLine (damaged.drop 6)
    assembled (late 64) = damaged ∧ assembled (late 176) = []
    ∧ (after (.frameNaked ⟨late 64, quiet⟩) (passedHeader damaged)).line.slot = .nak
    ∧ after (.frameNaked ⟨late 176, quiet⟩) (passedHeader damaged) = passedHeader damaged
    ∧ after (.frameNaked ⟨onLine damaged ++ List.replicate 384 false, quiet⟩) (passedHeader damaged)
      = passedHeader damaged := by decide +kernel

theorem test_witness_FramesNotTakenAreGivenUp_stale :
    (shed.books.invoice? 7 = some invoice7 ∧ invoice7.state = .active ∧ invoice7.phase = .none
      ∧ shed.books.invoice? 8 = none)
    ∧ (∃ r ∈ (shed7 (fun r => { r with state := .census, phase := .queued })).books.invoice? 7, r.phase = .queued)
    ∧ (∃ r ∈ (windowed { invoice7 with state := .stale }).books.invoice? 7, r.state = .stale ∧ r.phase = .window 9100)
    ∧ (∃ r ∈ (closing round7).books.invoice? 7, r.state = .closing) := by decide +kernel

/-- The filter acts at H4: a header of a held invoice passes and the damaged frame is then NAKed although the record has
gone; characters that contradict the kept ones change nothing; a stale request in a window asks for a recount. -/
theorem test_header_and_frame :
    (after (.frameFiltered (onLine (damaged.take 4))) listening).line.assembler
      = { chars := (damaged.take 4).map (·.data), bits := [], expected := some 7, error := false }
    ∧ (after (.frameNaked ⟨onLine damaged, quiet⟩) { passedHeader damaged with
        books := { listening.books with invoices := [{ invoice7 with number := 9 }] } }).line.slot = .nak
    ∧ after (.censusFrame (from_ 3) 8 12) (passedHeader damaged) = passedHeader damaged
    ∧ (after (.frameNaked ⟨onLine damaged, quiet⟩) (passedHeader (frameChars 3 (.census 8 12))))
      = passedHeader (frameChars 3 (.census 8 12))
    ∧ ((windowed { invoice7 with state := .census }).books.staleRequest.invoice? 7).map (fun r => (r.state, r.recount)) = some (.stale, true)
    ∧ shed.books.staleRequest.tx = [waiting (.census 7 12)] := by decide +kernel

/-- A frame of a filtered kind that is taken once it has passed the filter. -/
def takenPastH4 (n : Byte) (f : Frame) : Prop := (passedHeader (frameChars n.toNat f)).takes (from_ n) f

/-- The frames heard that the statements take, at the bounds of their fields, and one whose invoice passed the filter at
H4 and has been freed since. -/
theorem test_witness_frames_taken :
    takenPastH4 3 (.void 7 2) ∧ takenPastH4 3 (.void 7 99)
    ∧ takenPastH4 3 (.sample 7 2 50) ∧ takenPastH4 3 (.mark 7 2 4)
    ∧ listening.takes (from_ 31) (.bin 0 64 3 65535 0)
    ∧ listening.takes (from_ 3) (.chest 8 ⟨0, 0, 0, 0, 0, [⟨1, 0⟩]⟩)
    ∧ listening.takes (from_ 3) (.chest 7 ⟨2, 530, 30, 500, 0, [⟨1, 500⟩]⟩)
    ∧ takenPastH4 8 (.census 7 99) ∧ takenPastH4 3 (.tally 7 ⟨1, 12, 99, 99, 16, 1, 0⟩)
    ∧ takenPastH4 3 (.tally 7 ⟨2, 12, 0, 0, 0, 0, 0⟩) ∧ takenPastH4 3 (.claim 7 12 92 8)
    ∧ takenPastH4 3 (.closeCall 7 2 99 99) ∧ takenPastH4 3 (.closed 7 1 0 99 16777215)
    ∧ takenPastH4 3 (.census 8 12) := by
  unfold takenPastH4 State.takes; and_intros <;> decide +kernel

theorem test_witness_HeardCensusAndTally_operations :
    (shed.books.invoice? 8 = none ∧ shed.books.invoice? 7 = some invoice7 ∧ 4 ≤ invoice7.high ∧ invoice7.high < 5)
    ∧ ([1, 3] : List Nat).Pairwise (· < ·) ∧ (3 ∈ insertAsc 3 [1, 3])
    ∧ ([⟨3, 6⟩] : List Tallied).Pairwise (fun a b => a.station < b.station)
    ∧ putBy (fun t => t.station) ⟨3, 7⟩ ([⟨3, 6⟩, ⟨4, 1⟩] : List Tallied) = [⟨3, 7⟩, ⟨4, 1⟩] := by decide

theorem test_witness_HeardClaimAndSerial_removals :
    (let b := (shedTx [sendingEntry (.claim 7 12 5 4)]).books;
      ∃ e ∈ b.tx, e.frame.kind = 4 ∧ e.frame.invoice = 7 ∧ e.attempts = 0 ∧ e.removal = .none ∧ e.underWay = true)
    ∧ (let b : Books := { (shedTx [sendingEntry (.claim 7 12 5 4), heldClaim]).books with
          invoices := [{ invoice7 with high := 12 }] };
      (∃ r ∈ b.invoice? 7, r.ceiling ≤ r.high)
        ∧ (b.rewriteClaim 7).tx = [{ sendingEntry (.claim 7 12 5 4) with removal := .apply }]) := by decide +kernel

theorem test_witness_HeardCloseCallAndClosed_entries :
    (let b := (shedTx [sendingEntry (.closeCall 7 1 2 12)]).books; ∃ e ∈ b.tx, e.frame.kind = 1 ∧ e.frame.invoice = 7)
    ∧ (shed.books.invoice? 7 = some invoice7 ∧ invoice7.state = .active)
    ∧ (∃ r ∈ (closing round7).books.invoice? 7, r.state = .closing)
    ∧ (∃ r ∈ (shed7 (fun r => { r with state := .closed })).books.invoice? 7, r.state = .closed) := by decide +kernel

/-- Entering CLOSING removes a CLAIM with an attempt by applying it, and marks one under way; CLOSED from an open state
surrenders all. -/
theorem test_entering_closing_and_closed :
    let b := (shedTx [{ heldClaim with attempts := 1 }, sendingEntry (.census 7 12), waiting (.mark 7 1 2)]).books
    ((b.enterClosing (some 7) 7 .peer).invoice? 7).map (fun r => (r.state, r.free, r.surrendered, r.high))
      = some (.closing, [3], 5, 8)
    ∧ (b.enterClosing (some 7) 7 .peer).tx
      = [{ sendingEntry (.census 7 12) with removal := .apply }, waiting (.mark 7 1 2)]
    ∧ ((b.enterClosed none 7 .peer).invoice? 7).map (fun r => (r.state, r.role, r.free, r.surrendered))
      = some (.closed, some .peer, [], 6) := by decide +kernel

theorem test_witness_WindowsEndAtTheirTimes_answers :
    (shed.books.round? 7 = none)
    ∧ (let w : Round := { round7 with phase := .extension 9150 };
      (closing w).books.round? 7 = some w ∧ (∃ r ∈ (closing w).books.invoice? 7,
        (∀ x ∈ r.participants, ∃ y ∈ putBy (fun x => x.station) (⟨3, 0, 1, 0, 5⟩ : Answer) w.answers, y.station = x)
          ∧ (∀ y ∈ putBy (fun x => x.station) (⟨3, 0, 1, 0, 5⟩ : Answer) w.answers, y.inProgress ≠ 1)
          ∧ (∃ y ∈ putBy (fun x => x.station) (⟨3, 1, 1, 0, 5⟩ : Answer) w.answers, y.inProgress = 1)
          ∧ (∃ x ∈ r.participants, ∀ y ∈ putBy (fun x => x.station) (⟨4, 0, 1, 0, 5⟩ : Answer) w.answers, y.station ≠ x)))
    ∧ (closing round7).books.round? 7 = some round7
    ∧ (shed.books.invoice? 8 = none ∧ shed.books.invoice? 7 = some invoice7)
    ∧ round7.answers.Pairwise (fun x y => x.station < y.station) := by decide +kernel

/-- A census started: the phase and the frame; a round changed and ended alone. -/
theorem test_census_and_rounds :
    let b := (closing round7).books
    let two : Books := { b with rounds := [round7, { round7 with invoice := 8 }] }
    (shed.books.startCensus 7).tx = [waiting (.census 7 12)]
    ∧ (shed.books.startCensus 7).invoices = [{ invoice7 with phase := .queued }] ∧ shed.books.startCensus 8 = shed.books
    ∧ (two.modifyRound 7 (fun w => { w with number := 2 })).rounds = [{ round7 with number := 2 }, { round7 with invoice := 8 }]
    ∧ (two.dropRound 7).rounds = [{ round7 with invoice := 8 }] := by decide +kernel

/-- The last answer in EXTENSION completes the round early; one in progress does not.  The sheet counts every record. -/
theorem test_early_completion :
    let w : Round := { round7 with phase := .extension 9150 }
    ((closing w).books.recordAnswer 7 ⟨3, 0, 1, 2, 5⟩).rounds = []
    ∧ (((closing w).books.recordAnswer 7 ⟨3, 1, 1, 2, 5⟩).round? 7).map (·.phase) = some (.extension 9150)
    ∧ (((closing w).books.recordAnswer 7 ⟨3, 0, 1, 2, 5⟩).sheet? 7).map (fun l =>
        [l.gross, l.tare, l.net, l.unmarked, l.reportedPacked, l.reportedNet, l.reportedSurrendered])
      = some [1060, 60, 1000, 1, 2, 505, 2] := by decide +kernel

/-- `shed` with a word of `bits` in progress. -/
def inWord (bits : Option (List Bool)) : State := { shed with weigh := { shed.weigh with word := bits } }

theorem test_witness_WordsSamplesAndLoss_clauses :
    (shed.weigh.scale ≠ none ∧ (inWord none).weigh.word = none)
    ∧ ((inWord (some (List.replicate 22 true))).weigh.word = some (List.replicate 22 true)
      ∧ (List.replicate 22 true).length < 23)
    ∧ (let s := { holding 8388592 with weigh := { (holding 8388592).weigh with saturatedSince := some 8000 } };
      s.books.station = .online ∧ (after .goodSample s).books.station = .halt
        ∧ (after .goodSample { s with weigh := { s.weigh with saturatedSince := some 8001 } }).books.station = .online) := by
  decide +kernel

/-- A partial word, a word that a frame edge cuts off, and an unsteady update that sets the settle timer to 0. -/
theorem test_words_and_the_settle_timer :
    (after (.sampleWord [⟨false, true⟩]) (inWord (some [true]))).weigh.word = some [true, true]
    ∧ (after (.sampleWord [⟨true, false⟩]) (inWord (some [true]))).weigh.word = some [false]
    ∧ (after .goodSample { holding 110 with weigh := { (holding 110).weigh with timer := 90 } }).weigh.timer = 0 := by
  decide +kernel

/-- The chest in progress in TOPUP with component 1. -/
def topping : Fill := { fill7 with topupComp := some 1, netBefore := some 4000, topupDone := true }

theorem test_witness_FeedsFollowTheNet_topup :
    (let s := laneAt .topup topping 5000;
      s.filler.step = .topup ∧ topping.topupEnd = none ∧ s.filler.gate = .closed ∧ s.pins.hold = false
        ∧ s.weigh.reading = some ⟨50000, 5000, false⟩ ∧ s.filler.fill = some topping)
    ∧ ((gated .topup topping (.fine 1) 20001 true).filler.gate ≠ .closed)
    ∧ ({ topping with topupEnd := some .cutoff } : Fill).topupEnd ≠ none
    ∧ ((laneAt (.settle 1) fill7 0).filler.step ≠ .topup) := by decide +kernel

/-- TOPUP: the gate opens fine, closes at the cutoff with a settle, and an overload rejects. -/
theorem test_topup :
    let s (w : Int) : State := (laneAt .topup topping w).readingUpdate
    (s 5249).filler.gate = .fine 1 ∧ (s 5249).fineOut 1 = true ∧ (s 5249).coarseOut 1 = false
    ∧ (s 5250).filler.gate = .closed ∧ (s 5250).weigh.request = some ⟨.fill, 9000, false⟩
    ∧ (s 5250).filler.fill.map (·.topupEnd) = some (some .cutoff)
    ∧ (gated .topup topping (.fine 1) 20001 true).readingUpdate.filler.fill.map (·.reason) = some (some .overweight)
    ∧ (laneAt (.settle 2) fill7 1234).readingUpdate.filler.fill.map (·.lastNet) = some (some 934) := by decide +kernel

theorem test_witness_SettledReadingsAreJudged_topup :
    ((laneAt .topup fill7 0).filler.fill = some fill7 ∧ shed.books.chooseTopup 1 fill7.recipe none = some 1)
    ∧ ((bins ⟨.empty, some 1, some 0, 0⟩ ⟨.empty, some 1, some 0, 0⟩).books.chooseTopup 1 fill7.recipe none = none)
    ∧ (topping.topupComp = some 1 ∧ topping.comps[1 - 1]? = some comp1 ∧ topping.tare = some 300
      ∧ (topping.target : Int) - (laneAt .topup topping 0).inflight comp1.feeder = 4950
      ∧ (4950 : Int) ≤ 5250 - 300 ∧ (5249 : Int) - 300 < 4950)
    ∧ ({ laneAt .topup topping 0 with weigh := Weigh.reset } : State).weigh.reading = none := by decide +kernel

theorem test_witness_AcceptGivesTheLowestSerial_operations :
    (done7.recipe[0]? = some ⟨1, 600⟩ ∧ done7.comps[0]?.isSome ∧ (0 : Int) < 5006)
    ∧ ((laneAt .check done7 5306).books.fillOrphan { orphan5 with key := .orphan 1 }).reservation = none := by decide +kernel

/-- An orphan: the record of the CLOSED invoice under the reservation number; without an invoice no record. -/
theorem test_orphan :
    let closed : State := { laneAt .check done7 5306 with
      books := { (laneAt .check done7 5306).books with invoices := [{ invoice7 with state := .closed }] } }
    closed.accept.books.chests.map (·.key) = [.packed 1, .packed 2, .orphan 1]
      ∧ closed.accept.books.notices = [⟨.orphanPacked, 9000, some 7, none, some 1⟩]
      ∧ closed.accept.books.tx = [waiting (.chest 7 ⟨0, 0, 0, 0, 0, [⟨1, 300⟩, ⟨2, 200⟩]⟩)] := by decide +kernel

/-- An orphan all the same when the number stands again for a new record: no record, no serial, and nothing told to it. -/
theorem test_orphan_of_a_freed_record :
    let s := laneAt .check { done7 with freed := true } 5306
    let t := s.accept
    t.filler.step = .clear ∧ t.books.chests = s.books.chests ∧ t.books.invoices = [invoice7] ∧ t.books.reservation = none
    ∧ t.books.notices = [⟨.orphanPacked, 9000, some 7, none, some 1⟩]
    ∧ t.books.tx = [waiting (.chest 7 ⟨0, 0, 0, 0, 0, [⟨1, 300⟩, ⟨2, 200⟩]⟩)]
    ∧ (s.books.chestLost { done7 with freed := true }) = s.books := by decide +kernel

theorem test_witness_NoFlowAndTheRejectPulse_topup :
    (gated .topup topping (.fine 1) 2000 false).filler.step = .topup ∧ topping.topupComp = some 1
    ∧ (gated .topup topping (.fine 1) 2000 false).filler.flow = some ⟨0, 100⟩
    ∧ (laneAt .reject fill7 0).rejectOut = true ∧ ({ laneAt .reject fill7 0 with pins := ⟨true, true⟩ } : State).rejectOut = false
    ∧ (after .noFlow (gated .topup topping (.fine 1) 2000 false)).filler.step = .topup
    ∧ (after .noFlow (gated .topup topping (.fine 1) 2000 false)).weigh.request = some ⟨.fill, 10400, false⟩ := by
  decide +kernel

theorem test_witness_ChestAndHoldInputs_outputs :
    (let s : State := { asked .zeroScale 0 ⟨0, 0, false⟩ with pins := ⟨true, false⟩ };
      s.pins.chest = false ∧ s.weigh.request = some ⟨.zeroScale, 9000, false⟩ ∧ s.filler.step = .idle
        ∧ (after (.chestEdge true) s).port.reply = some ⟨0x33, .busy, []⟩)
    ∧ (laneAt .mark fill7 0).outfeedRun = true ∧ (laneAt .clear fill7 0).outfeedRun = true
    ∧ (laneAt .reject fill7 0).outfeedRun = false ∧ (marking .wait job7).outfeedRun = true := by decide +kernel

theorem test_witness_MarksFollowTheEncoder_clauses :
    shed.marker.job = none
    ∧ ((marking .wait job7).marker.chain ≠ .shift ∧ (marking .shift job7).marker.chain = .shift
      ∧ (marking .capture job7).marker.chain = .capture ∧ (marking .wait job7).marker.chain = .wait)
    ∧ (⟨true, true⟩ : Head).activeLow = true := by decide +kernel

/-- HALT ends a mark: a defect when a column of the mark is unfired.  The chain lines rest but in an operation. -/
theorem test_halt_mark :
    ((marking .wait job7).haltMark.books.tx = [waiting (.mark 7 1 3)])
    ∧ ((marking .wait { job7 with position := 11 }).haltMark.books.tx = [waiting (.mark 7 1 2)])
    ∧ ((marking .wait { job7 with position := 10 }).haltMark.books.tx = [waiting (.mark 7 1 3)])
    ∧ (marking .wait job7).chainOut = .rest ∧ (marking .shift job7).chainOut = .operation .shift
    ∧ (marking .wait job7).dataOut = [false] := by decide +kernel

theorem test_witness_RaisesReachTheListAndTheQueue_cleared :
    (faulty.books.faults = [] ++ ⟨.lineHeld, 2, .present, 1, 3⟩ :: [⟨.viewLost, 1, .cleared, 4, 4⟩])
    ∧ (⟨.viewLost, 1, .cleared, 4, 4⟩ : FaultEntry).cause = .cleared
    ∧ (faulty.books.clearCause .lineHeld).faults = [⟨.lineHeld, 2, .cleared, 1, 3⟩, ⟨.viewLost, 1, .cleared, 4, 4⟩]
    ∧ faulty.books.clearCause .viewLost = faulty.books ∧ faulty.books.clearCause .markLate = faulty.books
    ∧ faulty.noticeOut = true ∧ shed.noticeOut = false := by decide +kernel

theorem test_witness_SevereFaultsHaltTheLane_fills :
    ((laneAt (.feed 1) opened7 1300).filler.step.inFill = true ∧ (∃ x ∈ opened7.comps, x.opened = true))
    ∧ ((laneAt .armed fill7 0).filler.step = .armed ∧ (∀ x ∈ fill7.comps, x.opened = false))
    ∧ ((laneAt .tare fill7 0).filler.step.inFill = true ∧ (laneAt .tare fill7 0).filler.step ≠ .armed)
    ∧ (({ laneAt .clear fill7 0 with pins := ⟨false, false⟩ } : State).filler.step = .clear)
    ∧ ((laneAt .mark fill7 0).filler.step.inFill = false ∧ (laneAt .mark fill7 0).filler.step ≠ .clear)
    ∧ (saturated.saturationDue = true ∧ saturated.weigh.lossFound = false)
    ∧ (({ saturated with weigh := { saturated.weigh with lossFound := true } } : State).saturationDue = true) := by
  decide +kernel

theorem test_witness_TablesStayLawful_stores :
    shed.storeLaw ∧ (laneAt (.feed 1) opened7 1300).storeLaw ∧ (orphaned.reservationLaw ∧ step orphaned = .next orphaned.idleTick)
    ∧ shed.books.serialLaw := by
  refine ⟨?_, ?_, ⟨⟨by decide, by decide, ?_⟩, by rfl⟩, ?_, ?_, ?_⟩
  · unfold State.storeLaw; decide +kernel
  · unfold State.storeLaw; decide +kernel
  · intro c hc k hk
    simp only [orphaned, shedWith, List.mem_cons, List.not_mem_nil, or_false] at hc
    rcases hc with rfl | rfl | rfl <;> cases hk
    decide
  · decide +kernel
  · intro c hc
    refine ⟨invoice7, by decide +kernel, ?_⟩
    simp only [shed, List.mem_cons, List.not_mem_nil, or_false] at hc
    rcases hc with rfl | rfl <;> refine ⟨rfl, ?_⟩ <;> intro x hx <;> cases hx <;> decide
  · simp [shed, Books.reset]

end Sys2Proof.Tests
end

section
/-! PROOFS. What the reset state holds (O4). -/

namespace Sys2Proof.Machine

/-- After reset no sender's latest CHEST is remembered (R32). -/
theorem Books.repeat?_reset (k : Nat) : Books.reset.repeat? k = none := by
  simp only [Books.repeat?, Books.reset, Vector.getElem?_replicate]
  split <;> rfl

/-- After reset every bin, in the table or not, is UNKNOWN (R69). -/
theorem Books.bin_reset (n : Nat) : Books.reset.bin n = Bin.reset := by
  simp only [Books.bin, Books.reset, Vector.getElem?_replicate]
  split <;> rfl

/-- After reset no feeder serves a bin (R79). -/
theorem Books.feederOf_reset (n : Nat) : Books.reset.feederOf n = 0 := by
  have unused : Books.reset.feeders.toList = List.replicate 4 none := rfl
  rw [Books.feederOf, unused]
  rfl

/-- After reset every feeder's in-flight value is 0 (R100). -/
theorem State.inflight_reset (k : Nat) : State.reset.inflight k = 0 := by
  simp only [State.inflight, State.reset, Filler.reset, Vector.getElem?_replicate]
  split <;> rfl

/-- Settles O4: each table's reset lemma above, and the other fields by the value of the reset state. -/
theorem resetHoldsTheSpecsValues : Obligations.ResetHoldsTheSpecsValues := by
  have outputs : ∀ k, State.reset.coarseOut k = false ∧ State.reset.fineOut k = false := fun _ => ⟨rfl, rfl⟩
  unfold Obligations.ResetHoldsTheSpecsValues
  refine ⟨rfl, rfl, rfl, rfl, rfl, rfl, rfl, rfl, rfl, rfl, rfl, rfl, Books.repeat?_reset, Books.bin_reset,
    Books.feederOf_reset, rfl, rfl, rfl, rfl, rfl, rfl, rfl, rfl, rfl, rfl, rfl, rfl, rfl, State.inflight_reset, rfl, rfl,
    rfl, rfl, rfl, outputs, rfl, rfl, rfl, rfl, rfl⟩

end Sys2Proof.Machine
end

section
/-! PROOFS. Which entry of the Transmit Queue begins (R10, R25; O32). -/

namespace Sys2Proof.Machine

/-! ### Facts about the queue (R25, R26) -/

/-- The held entries (R25): the CLAIMs whose invoice is in CENSUS or STALE. -/
theorem Books.holds_iff (b : Books) (e : TxEntry) : b.holds e = true ↔ e.frame.kind = 4
    ∧ ∃ r, b.invoice? e.frame.invoice = some r ∧ (r.state = .census ∨ r.state = .stale) := by
  cases found : b.invoice? e.frame.invoice <;> simp [Books.holds, found]

/-- `mapFirst` changes the first entry with the property, wherever it stands. -/
theorem mapFirst_append_cons {α : Type} {p : α → Bool} {f : α → α} {pre : List α} {x : α} (post : List α)
    (hpre : ∀ y ∈ pre, p y = false) (hx : p x = true) : mapFirst p f (pre ++ x :: post) = pre ++ f x :: post := by
  induction pre with
  | nil => simp [mapFirst, hx]
  | cons y pre ih => simp [mapFirst, hpre y (by simp), ih fun z hz => hpre z (by simp [hz])]

/-- A frame stands forward for contention when some entry is not held (R25). -/
theorem Books.contending_isSome_iff (b : Books) : b.contending.isSome = true ↔ ∃ e ∈ b.tx, b.holds e = false := by
  simp [Books.contending]

/-- ONLINE and HALT are the states in which the line is used (R21). -/
theorem StationState.onLine_iff (st : StationState) : st.onLine = true ↔ st = .online ∨ st = .halt := by
  cases st <;> decide

/-- Settles O32: BEGIN_FRAME begins exactly when `canBegin`, whose last condition is that some entry is not held. -/
theorem beginFrameSendsTheOldestEligible : Obligations.BeginFrameSendsTheOldestEligible := by
  intro s held hheld
  have holds_iff : ∀ e, s.books.holds e = true ↔ held e := fun e => (s.books.holds_iff e).trans (hheld e).symm
  have holds_false_iff : ∀ e, s.books.holds e = false ↔ ¬ held e := fun e => by rw [← holds_iff, Bool.not_eq_true]
  have begins_iff : s.canBegin = true ↔ (s.books.station = .online ∨ s.books.station = .halt) ∧ s.line.level = .idle
      ∧ s.line.candidate = [] ∧ ∃ e ∈ s.books.tx, ¬ held e := by
    simp [State.canBegin, StationState.onLine_iff, Books.contending_isSome_iff, holds_false_iff, and_assoc]
  refine ⟨fun pre e post station idle unchecked tx hpre he => ?_, fun hno => ?_⟩
  · have begins : s.canBegin = true := begins_iff.2 ⟨station, idle, unchecked, e, by simp [tx], he⟩
    have skipped : ∀ x ∈ pre, (!s.books.holds x) = false := fun x hx => by simp [(holds_iff x).2 (hpre x hx)]
    have chosen : (!s.books.holds e) = true := by simp [(holds_false_iff e).2 he]
    change execBeginFrame s = _
    rw [execBeginFrame, if_pos begins]
    simp only [State.onBooks, State.setBooks, State.setLine, Books.beginAttempt, tx,
      mapFirst_append_cons post skipped chosen]
  · have stays : ¬ s.canBegin = true := by
      rw [begins_iff]
      rintro ⟨station, idle, unchecked, e, he, eligible⟩
      rcases hno with ⟨online, halt⟩ | busy | checked | none
      · exact station.elim online halt
      · exact busy idle
      · exact checked unchecked
      · exact eligible (none e he)
    exact congrArg _ (if_neg stays)

end Sys2Proof.Machine
end

section
/-! PROOFS. The hunt for a start and the line's states (R2, R3, R8, R9; O31). -/

namespace Sys2Proof.Machine

/-! ### The hunt for a start, sample by sample (R2, R3) -/

/-- One more sample within a character. -/
theorem Receiver.sample_of_tick {r : Receiver} {t : Nat} (h : r.tick = some t) (x : Bool) :
    r.sample x = { r.inChar t x with recessive := if x then r.recessive + 1 else 0 } := by
  simp only [Receiver.sample, h]

/-- One more sample while the receiver hunts. -/
theorem Receiver.sample_of_hunting {r : Receiver} (h : r.tick = none) (x : Bool) :
    r.sample x = { r with recessive := if x then r.recessive + 1 else 0, latest := (r.latest.2, x),
                          tick := if !x && 3 ≤ r.recessive then some 1 else none } := by
  simp only [Receiver.sample, h]
  split <;> rfl

theorem Receiver.latest_inChar (r : Receiver) (t : Nat) (x : Bool) : (r.inChar t x).latest = (r.latest.2, x) := by
  unfold Receiver.inChar
  dsimp only
  split_ifs <;> rfl

/-- Within a character a sample moves the tick on by one, or ends the check or the character. -/
theorem Receiver.tick_inChar_le (r : Receiver) (t : Nat) (x : Bool) : (r.inChar t x).tick.getD 0 ≤ t + 1 := by
  unfold Receiver.inChar
  dsimp only
  split_ifs <;> simp <;> omega

theorem Receiver.latest_sample (r : Receiver) (x : Bool) : (r.sample x).latest = (r.latest.2, x) := by
  cases h : r.tick with
  | none => rw [Receiver.sample_of_hunting h]
  | some t => rw [Receiver.sample_of_tick h, Receiver.latest_inChar]

theorem Receiver.tick_sample_le (r : Receiver) (x : Bool) : (r.sample x).tick.getD 0 ≤ r.tick.getD 0 + 1 := by
  cases h : r.tick with
  | none => rw [Receiver.sample_of_hunting h]; dsimp only; split <;> simp
  | some t => rw [Receiver.sample_of_tick h]; exact r.tick_inChar_le t x

theorem Receiver.confirmed_eq_false {r : Receiver} (h : r.tick.getD 0 ≤ 10) : r.confirmed = false := by
  unfold Receiver.confirmed
  cases ht : r.tick with
  | none => rfl
  | some t => simp only [ht, Option.getD_some] at h; simp; omega

/-- The hunt takes every sample while none but the last can be the tick 10 that confirms a start. -/
theorem Receiver.seek_eq_take (r : Receiver) (xs : List Bool) (h : r.tick.getD 0 + xs.length ≤ 11) :
    r.seek xs = r.take xs := by
  induction xs generalizing r with
  | nil => rfl
  | cons x xs ih =>
    simp only [List.length_cons] at h
    have unconfirmed : r.confirmed = false := Receiver.confirmed_eq_false (by omega)
    have next : (r.sample x).seek xs = (r.sample x).take xs := ih _ (by have := r.tick_sample_le x; omega)
    simpa [Receiver.seek, Receiver.take, unconfirmed] using next

theorem Receiver.tick_take_le (r : Receiver) (xs : List Bool) : (r.take xs).tick.getD 0 ≤ r.tick.getD 0 + xs.length := by
  induction xs generalizing r with
  | nil => exact le_rfl
  | cons x xs ih =>
    have step := r.tick_sample_le x
    have rest := ih (r.sample x)
    simp only [Receiver.take, List.foldl_cons, List.length_cons] at rest ⊢
    omega

theorem Receiver.take_append (r : Receiver) (xs ys : List Bool) : r.take (xs ++ ys) = (r.take xs).take ys :=
  List.foldl_append

/-- Recessive samples lengthen the run of a receiver that hunts, and it hunts on. -/
theorem Receiver.hunting_seek_recessive (n m : Nat) (xs : List Bool) :
    (Receiver.hunting n).seek (List.replicate m true ++ xs) = (Receiver.hunting (n + m)).seek xs := by
  induction m generalizing n with
  | zero => rfl
  | succ m ih =>
    have next := ih (n + 1)
    rwa [show n + 1 + m = n + (m + 1) by omega] at next

/-- After three recessive samples the first dominant one is tick 0 of a start bit (R3). -/
theorem Receiver.hunting_sample_dominant {n : Nat} (h : 3 ≤ n) :
    (Receiver.hunting n).sample false = Receiver.atStart.sample false := by
  simp [Receiver.sample, Receiver.hunting, Receiver.atStart, Receiver.inChar, h]

/-- A hunt that has seen three recessive samples takes ticks that begin dominant as those of a start bit. -/
theorem Receiver.hunting_seek_start {n m : Nat} (h : 3 ≤ n + m) {ticks : List Bool} (dominant : ticks.head? = some false)
    (short : ticks.length ≤ 11) :
    (Receiver.hunting n).seek (List.replicate m true ++ ticks) = Receiver.atStart.take ticks := by
  obtain ⟨rest, rfl⟩ : ∃ rest, ticks = false :: rest := by
    cases ticks with
    | nil => cases dominant
    | cons x rest => exact ⟨rest, by simpa using dominant⟩
  rw [Receiver.hunting_seek_recessive, Receiver.seek_eq_take _ _ (by simpa [Receiver.hunting] using short)]
  simp only [Receiver.take, List.foldl_cons, Receiver.hunting_sample_dominant h]

/-- Tick 10 of a start bit: recessive by the majority, the check ends; dominant, the character goes on (R3). -/
theorem Receiver.tick_sample_ten {r : Receiver} (tick : r.tick = some 10) (counting : r.counting = false) (x : Bool) :
    (r.sample x).tick = if majority r.latest.1 r.latest.2 x then none else some 11 := by
  rw [Receiver.sample_of_tick tick]
  cases level : majority r.latest.1 r.latest.2 x <;> simp [Receiver.inChar, level, counting]

/-- The eleven ticks of a start bit are judged by its level: recessive is a false start (R3). -/
theorem Receiver.tick_atStart_take (ticks : BitVec 11) :
    (Receiver.atStart.take (samplesOf ticks)).tick = if levelOf ticks then none else some 11 := by
  have split : samplesOf ticks = (List.range 8).map (fun i => ticks.getLsbD i) ++ [ticks.getLsbD 8] ++ [ticks.getLsbD 9]
      ++ [ticks.getLsbD 10] := rfl
  obtain ⟨tick, counting⟩ := Receiver.take_ticks .atStart 0 rfl rfl
    ((List.range 8).map (fun i => ticks.getLsbD i) ++ [ticks.getLsbD 8] ++ [ticks.getLsbD 9]) (by simp)
  rw [split, Receiver.take_append]
  generalize hr : Receiver.atStart.take
    ((List.range 8).map (fun i => ticks.getLsbD i) ++ [ticks.getLsbD 8] ++ [ticks.getLsbD 9]) = r at tick counting ⊢
  have latest : r.latest = (ticks.getLsbD 8, ticks.getLsbD 9) := by
    rw [← hr]
    simp only [Receiver.take, List.foldl_append, List.foldl_cons, List.foldl_nil, Receiver.latest_sample]
  exact (Receiver.tick_sample_ten tick counting _).trans (by rw [latest]; rfl)

/-- A dominant sample that comes too early starts nothing. -/
theorem Receiver.hunting_sample_early {n : Nat} (few : n < 3) :
    (Receiver.hunting n).sample false = { Receiver.hunting 0 with latest := (true, false) } := by
  rw [Receiver.sample_of_hunting rfl]
  simp [Receiver.hunting, Nat.not_le.2 few]

/-- A hunt through ticks that begin dominant too early, and in which no three recessive ticks are followed by a dominant
one: it goes on, and its recessive run is what the ticks so far end with. -/
theorem Receiver.hunting_take_quiet {n : Nat} (few : n < 3) {f : Nat → Bool} (dominant : f 0 = false)
    (quiet : ∀ i < 8, f i = true → f (i + 1) = true → f (i + 2) = true → f (i + 3) = true) (k : Nat) (hk : k ≤ 10) :
    ((Receiver.hunting n).take ((List.range (k + 1)).map f)).tick = none
    ∧ ∀ j < ((Receiver.hunting n).take ((List.range (k + 1)).map f)).recessive, j ≤ k ∧ f (k - j) = true := by
  induction k with
  | zero =>
    have first : (Receiver.hunting n).take ((List.range (0 + 1)).map f) = (Receiver.hunting n).sample false := by
      simp [Receiver.take, dominant]
    rw [first, Receiver.hunting_sample_early few]
    simp [Receiver.hunting]
  | succ k ih =>
    obtain ⟨tick, trues⟩ := ih (by omega)
    have next : (Receiver.hunting n).take ((List.range (k + 1 + 1)).map f)
        = ((Receiver.hunting n).take ((List.range (k + 1)).map f)).sample (f (k + 1)) := by
      rw [List.range_succ, List.map_append, Receiver.take_append]
      rfl
    rw [next, Receiver.sample_of_hunting tick]
    cases level : f (k + 1) with
    | true =>
      refine ⟨by simp, fun j hj => ?_⟩
      cases j with
      | zero => exact ⟨by omega, level⟩
      | succ j =>
        obtain ⟨le, up⟩ := trues j (by simpa using hj)
        exact ⟨by omega, by rwa [show k + 1 - (j + 1) = k - j by omega]⟩
    | false =>
      have short : ((Receiver.hunting n).take ((List.range (k + 1)).map f)).recessive < 3 := by
        by_contra long
        have back : ∀ j < 3, j ≤ k ∧ f (k - j) = true := fun j hj => trues j (by omega)
        obtain ⟨two, third⟩ := back 2 (by omega)
        have fourth : f (k - 2 + 3) = true := quiet (k - 2) (by omega) third
          (by rw [show k - 2 + 1 = k - 1 by omega]; exact (back 1 (by omega)).2)
          (by rw [show k - 2 + 2 = k - 0 by omega]; exact (back 0 (by omega)).2)
        rw [show k - 2 + 3 = k + 1 by omega, level] at fourth
        exact Bool.false_ne_true fourth
      simpa using short

/-! ### A row of samples in IDLE (R3, R8) -/

theorem Line.pass_candidate (l : Line) (samples : List Bool) : (l.pass samples).candidate = l.candidate := by
  rw [Line.pass_eq]

/-- Samples that end a start bit begin a frame, or leave a false start behind (R3). -/
theorem Line.seek_start (l : Line) {samples : List Bool} (live : Bool) {ticks : BitVec 11}
    (hunt : (Receiver.seeking l.recessiveRun l.candidate).seek samples = Receiver.atStart.take (samplesOf ticks)) :
    l.seek samples live = if levelOf ticks then { l.pass samples with candidate := [] } else (l.pass samples).begun live := by
  have tick := Receiver.tick_atStart_take ticks
  unfold Line.seek
  rw [hunt]
  cases level : levelOf ticks with
  | false =>
    rw [level, if_neg (by decide)] at tick
    simp [Receiver.confirmed, tick]
  | true =>
    rw [level, if_pos rfl] at tick
    simp [Receiver.confirmed, Receiver.checking, tick]

/-- Samples that end within a start candidate leave its ticks in check. -/
theorem Line.seek_checking (l : Line) {samples : List Bool} (live : Bool) {before ticks : List Bool}
    (tick : ((Receiver.seeking l.recessiveRun l.candidate).seek samples).tick.getD 0 = ticks.length)
    (short : ticks.length ≤ 10) (all : l.candidate ++ samples = before ++ ticks) :
    l.seek samples live = { l.pass samples with candidate := ticks } := by
  unfold Line.seek
  simp [Receiver.confirmed_eq_false (tick.trans_le short), Receiver.checking, tick, all]

theorem exec_startConfirmed {s : State} (idle : s.line.level = .idle) (samples : List Bool) :
    exec (.startConfirmed samples) s = .next (s.setLine (s.line.seek samples s.books.station.onLine)) :=
  congrArg Host.Outcome.next (if_pos idle)

theorem StationState.onLine_eq (st : StationState) : st.onLine = (st = .online || st = .halt) := by
  cases st <;> rfl

/-- The row that confirms a start: the line is BUSY with another station's frame; a false start leaves the line IDLE. -/
theorem exec_startConfirmed_start {s : State} (idle : s.line.level = .idle) {samples : List Bool} {ticks : BitVec 11}
    (hunt : (Receiver.seeking s.line.recessiveRun s.line.candidate).seek samples = Receiver.atStart.take (samplesOf ticks))
    {l : Line} (hl : l = { s.line.pass samples with candidate := [] }) :
    (levelOf ticks = false → exec (.startConfirmed samples) s = .next { s with line :=
      { l with
        level := .busy, role := .receiver (s.books.station = .online || s.books.station = .halt),
        assembler := { Assembler.empty with bits := [false] }, slot := .none } })
    ∧ (levelOf ticks = true → exec (.startConfirmed samples) s = .next { s with line := l }) := by
  subst hl
  rw [exec_startConfirmed idle, Line.seek_start s.line _ hunt, StationState.onLine_eq]
  exact ⟨fun level => by rw [level]; rfl, fun level => by rw [level]; rfl⟩

/-- The row that ends within a start candidate, or with none in check. -/
theorem exec_startConfirmed_checking {s : State} (idle : s.line.level = .idle) {samples before ticks : List Bool}
    (tick : ((Receiver.seeking s.line.recessiveRun s.line.candidate).seek samples).tick.getD 0 = ticks.length)
    (short : ticks.length ≤ 10) (all : s.line.candidate ++ samples = before ++ ticks) :
    exec (.startConfirmed samples) s = .next { s with line := { s.line.pass samples with candidate := ticks } } := by
  rw [exec_startConfirmed idle, Line.seek_checking s.line _ tick short all]
  rfl

theorem Receiver.seeking_nil (n : Nat) : Receiver.seeking n [] = .hunting n := rfl

/-- A receiver within a candidate takes the candidate's next ticks as they come. -/
theorem Receiver.seeking_seek {candidate : List Bool} (n : Nat) {samples : List Bool} (checked : candidate ≠ [])
    (short : candidate.length + samples.length ≤ 11) :
    (Receiver.seeking n candidate).seek samples = Receiver.atStart.take (candidate ++ samples) := by
  have tick := Receiver.tick_take_le .atStart candidate
  have zero : Receiver.atStart.tick.getD 0 = 0 := rfl
  rw [Receiver.seeking, if_neg checked, Receiver.seek_eq_take _ _ (by omega), Receiver.take_append]

theorem Receiver.tick_atStart_take_short {ticks : List Bool} (short : ticks.length ≤ 10) :
    (Receiver.atStart.take ticks).tick.getD 0 = ticks.length := by
  rw [(Receiver.take_ticks .atStart 0 rfl rfl ticks (by omega)).1]
  simp

/-! ### O31, clause by clause -/

/-- The line becomes IDLE (R8, R9, R14, R22). -/
theorem lineIdle_acts {s : State} (running : s.inReset = false) (level : s.line.level ≠ .idle)
    (role : s.line.role ≠ .sender) {t : State} (ht : t = { s with
        line := { s.line with level := .idle, recessiveRun := 176, dominantRun := 0, role := .none,
                              assembler := .empty, lost := false, candidate := [] },
        books := (if (s.line.lost = true ∨ s.line.role = .receiver true)
            ∧ (s.books.station = .online ∨ s.books.station = .halt)
          then ((s.books.clearCause .lineHeld).raiseFault .viewLost).staleRequest
          else s.books.clearCause .lineHeld) }) :
    exec .lineIdle s = .next (if t.books.onlineWait then t.goOnline else t) := by
  have can : s.canIdle = true := by simp [State.canIdle, running, level, role]
  have heard : (s.line.framingLost && (s.books.clearCause .lineHeld).station.onLine) = true
      ↔ (s.line.lost = true ∨ s.line.role = .receiver true) ∧ (s.books.station = .online ∨ s.books.station = .halt) := by
    rw [show (s.books.clearCause .lineHeld).station = s.books.station from rfl]
    simp [Line.framingLost, StationState.onLine_iff]
  have same : (s.setLine s.line.atIdle).onBooks (·.heardIdle s.line.framingLost) = t := by
    simp only [ht, State.onBooks, State.setLine, State.setBooks, Line.atIdle, Books.heardIdle, heard]
  change execLineIdle s = _
  rw [execLineIdle, if_pos can, State.becomeIdle, same]

/-- The line becomes HELD (R9). -/
theorem lineHeld_acts {s : State} (running : s.inReset = false) (level : s.line.level = .busy)
    (role : s.line.role ≠ .sender) : exec .lineHeld s = .next { s with
        line := { s.line with level := .held, recessiveRun := 0, dominantRun := 384, role := .none, assembler := .empty,
                              lost := s.line.lost || decide (s.line.role = .receiver true) },
        books := s.books.raiseFault .lineHeld } := by
  have can : s.canHold = true := by simp [State.canHold, running, level, role]
  exact congrArg Host.Outcome.next (if_pos can)

/-- Ticks that begin dominant after fewer than three recessive samples confirm no start. -/
theorem startConfirmed_early {s : State} (idle : s.line.level = .idle) (unchecked : s.line.candidate = []) {m : Nat}
    {ticks : BitVec 11} (dominant : ticks.getLsbD 0 = false) (few : s.line.recessiveRun + m < 3) :
    ∃ c, exec (.startConfirmed (List.replicate m true ++ samplesOf ticks)) s
        = .next { s with line := { s.line.pass (List.replicate m true ++ samplesOf ticks) with candidate := c } }
      ∧ ((∀ i < 8, ticks.getLsbD i = true → ticks.getLsbD (i + 1) = true → ticks.getLsbD (i + 2) = true →
          ticks.getLsbD (i + 3) = true) → c = []) := by
  have eleven : (samplesOf ticks).length = 11 := by simp [samplesOf]
  have hunt : (Receiver.seeking s.line.recessiveRun s.line.candidate).seek (List.replicate m true ++ samplesOf ticks)
      = (Receiver.hunting (s.line.recessiveRun + m)).take (samplesOf ticks) := by
    rw [unchecked, Receiver.seeking_nil, Receiver.hunting_seek_recessive, Receiver.seek_eq_take]
    simp [Receiver.hunting, eleven]
  have unconfirmed : ((Receiver.hunting (s.line.recessiveRun + m)).take (samplesOf ticks)).tick.getD 0 ≤ 10 := by
    have first : ((Receiver.hunting (s.line.recessiveRun + m)).sample false).tick = none := by
      rw [Receiver.hunting_sample_early few]
      rfl
    obtain ⟨rest, hrest⟩ : ∃ rest, samplesOf ticks = false :: rest :=
      ⟨_, by rw [samplesOf, List.range_succ_eq_map, List.map_cons, dominant]⟩
    rw [hrest, List.length_cons] at eleven
    have := Receiver.tick_take_le ((Receiver.hunting (s.line.recessiveRun + m)).sample false) rest
    rw [first, Option.getD_none, zero_add] at this
    rw [hrest]
    exact this.trans (by omega)
  refine ⟨((Receiver.hunting (s.line.recessiveRun + m)).take (samplesOf ticks)).checking
    (List.replicate m true ++ samplesOf ticks), ?_, fun quiet => ?_⟩
  · rw [exec_startConfirmed idle, Line.seek, hunt]
    simp only [Receiver.confirmed_eq_false unconfirmed, unchecked, List.nil_append]
    rfl
  · rw [Receiver.checking, samplesOf, (Receiver.hunting_take_quiet few dominant quiet 10 le_rfl).1]
    simp

theorem levelOf_eq_false_iff (w : Nat) (ticks : BitVec w) : levelOf ticks = false ↔
    (ticks.getLsbD 8 = false ∧ ticks.getLsbD 9 = false) ∨ (ticks.getLsbD 8 = false ∧ ticks.getLsbD 10 = false)
      ∨ (ticks.getLsbD 9 = false ∧ ticks.getLsbD 10 = false) := by
  unfold levelOf majority
  cases ticks.getLsbD 8 <;> cases ticks.getLsbD 9 <;> cases ticks.getLsbD 10 <;> decide

/-- Settles O31: the rows LINE_IDLE and LINE_HELD, then START_CONFIRMED by what its samples leave the hunt in. -/
theorem lineStatesFollowTheRuns : Obligations.LineStatesFollowTheRuns := by
  refine ⟨?_, ?_, ?_, ?_, ?_, ?_, ?_, Line.pass_eq, levelOf_eq_false_iff⟩
  · intro s running level role t ht
    have acts := lineIdle_acts running level role ht
    exact ⟨fun wait => by rw [acts, wait]; rfl, fun wait => by rw [acts, wait]; rfl⟩
  · exact fun s running level role => lineHeld_acts running level role
  · intro s m ticks samples l idle unchecked dominant hs hl
    have hl' : l = { s.line.pass samples with candidate := [] } := by
      rw [hl, ← unchecked, ← Line.pass_candidate s.line samples]
    have hunt : 3 ≤ s.line.recessiveRun + m →
        (Receiver.seeking s.line.recessiveRun s.line.candidate).seek samples = Receiver.atStart.take (samplesOf ticks) := by
      intro enough
      rw [hs, unchecked]
      exact Receiver.hunting_seek_start enough (by simpa [samplesOf, List.range_succ_eq_map] using dominant) (by simp)
    refine ⟨fun enough => (exec_startConfirmed_start idle (hunt enough) hl').1,
      fun enough => (exec_startConfirmed_start idle (hunt enough) hl').2, fun few => ?_⟩
    subst hl hs
    exact startConfirmed_early idle unchecked dominant few
  · intro s m ticks samples idle unchecked hs enough short dominant
    refine exec_startConfirmed_checking idle (before := List.replicate m true) ?_ short (by rw [unchecked, hs]; rfl)
    rw [hs, unchecked, Receiver.seeking_nil]
    cases ticks with
    | nil => rw [Receiver.hunting_seek_recessive]; rfl
    | cons x rest =>
      rw [Receiver.hunting_seek_start (by simpa using enough) (by simpa using dominant) (by omega),
        Receiver.tick_atStart_take_short short]
  · intro s ticks samples l idle checked hne hs hl
    have length : s.line.candidate.length + samples.length = 11 := by
      rw [← List.length_append, hs]; simp
    refine exec_startConfirmed_start idle ?_ hl
    rw [Receiver.seeking_seek _ checked length.le, hs, samplesOf]
  · intro s samples idle checked short
    refine exec_startConfirmed_checking idle (before := []) ?_ (by simpa using short) rfl
    rw [Receiver.seeking_seek _ checked (by omega), Receiver.tick_atStart_take_short (by simpa using short)]
  · exact fun s samples busy => congrArg Host.Outcome.next (if_neg busy)

end Sys2Proof.Machine
end

section
/-! PROOFS. A receiver on a sound line: the characters that driven samples give (R3 to R5). -/

namespace Sys2Proof.Machine

/-! ### A character from its samples (R3 to R5) -/

/-- A receiver in a character that takes sound bits: the next tick, the levels so far, and the whole characters before. -/
def Receiver.At (r : Receiver) (t : Nat) (levels : List Bool) (cs : List RxChar) : Prop :=
  r.tick = some t ∧ r.bits = levels ∧ r.counting = false ∧ r.chars = cs

/-- A receiver that takes the next dominant sample as tick 0 of a character: it stands there, or hunts after three
recessive samples. -/
def Receiver.Ready (r : Receiver) (cs : List RxChar) : Prop :=
  (r.tick = some 0 ∨ (r.tick = none ∧ 3 ≤ r.recessive)) ∧ r.bits = [] ∧ r.counting = false ∧ r.chars = cs

variable {r : Receiver} {t : Nat} {levels : List Bool} {cs : List RxChar}

/-- Only ticks 10 of the bits, and the last of a character that is counted, do more than pass. -/
theorem Receiver.At.pass (h : r.At t levels cs) (x : Bool) (h₁ : t % 16 ≠ 10) (h₂ : t ≠ 175) :
    (r.sample x).At (t + 1) levels cs := by
  obtain ⟨tick, bits, counting, chars⟩ := h
  have n₁ : t ≠ 10 := by omega
  have n₂ : t ≠ 170 := by omega
  rw [Receiver.sample_of_tick tick]
  simp [Receiver.At, Receiver.inChar, h₁, h₂, n₁, n₂, bits, counting, chars]

theorem Receiver.At.passes {n : Nat} (h : r.At t levels cs) (x : Bool)
    (quiet : ∀ j < n, (t + j) % 16 ≠ 10 ∧ t + j ≠ 175) : (r.take (List.replicate n x)).At (t + n) levels cs := by
  induction n generalizing r t with
  | zero => exact h
  | succ n ih =>
    have next := ih (h.pass x (quiet 0 (by omega)).1 (quiet 0 (by omega)).2)
      (fun j hj => by have := quiet (j + 1) (by omega); rwa [show t + 1 + j = t + (j + 1) by omega])
    rwa [show t + 1 + n = t + (n + 1) by omega] at next

theorem majority_self (x : Bool) : majority x x x = x := by cases x <;> rfl

/-- Tick 10 of a bit of one level, not of the stop bit: the level joins; a start bit is dominant (R3). -/
theorem Receiver.At.level {x : Bool} (h : r.At t levels cs) (latest : r.latest = (x, x)) (h₁ : t % 16 = 10)
    (start : t = 10 → x = false) (h₂ : t ≠ 170) : (r.sample x).At (t + 1) (levels ++ [x]) cs := by
  obtain ⟨tick, bits, counting, chars⟩ := h
  have go : ¬ ((decide (t = 10) && x && !false) = true) := by
    simp only [Bool.and_eq_true, decide_eq_true_eq]
    rintro ⟨⟨ten, recessive⟩, _⟩
    exact absurd (start ten) (by simp [recessive])
  have n : t ≠ 175 := by omega
  rw [Receiver.sample_of_tick tick]
  simp only [Receiver.At, Receiver.inChar, latest, majority_self, if_neg go, if_neg h₂, if_neg n, if_pos h₁, bits, counting,
    chars, and_self]

/-- Tick 10 of a recessive stop bit ends the character, and the receiver hunts again (R4). -/
theorem Receiver.At.stop (h : r.At 170 levels cs) (latest : r.latest = (true, true)) :
    (r.sample true).tick = none ∧ (r.sample true).bits = [] ∧ (r.sample true).counting = false
      ∧ (r.sample true).chars = cs ++ [charOf (levels ++ [true])] := by
  obtain ⟨tick, bits, counting, chars⟩ := h
  rw [Receiver.sample_of_tick tick]
  simp [Receiver.inChar, latest, majority, bits, counting, chars]

theorem Receiver.latest_take_replicate (r : Receiver) (n : Nat) (x : Bool) :
    (r.take (List.replicate (n + 2) x)).latest = (x, x) := by
  simp only [List.replicate_succ', Receiver.take, List.foldl_append, List.foldl_cons, List.foldl_nil,
    Receiver.latest_sample]

/-- One whole bit of a character, from tick 0 or from later in it, gives its level. -/
theorem Receiver.At.bit {k n : Nat} {x : Bool} (h : r.At (16 * k + (8 - n)) levels cs) (hn : n ≤ 8) (hk : k ≤ 9)
    (start : k = 0 → x = false) :
    (r.take (List.replicate (n + 8) x)).At (16 * (k + 1)) (levels ++ [x]) cs := by
  have split : List.replicate (n + 8) x = List.replicate (n + 2) x ++ (x :: List.replicate 5 x) := by
    rw [← List.replicate_succ, List.replicate_append_replicate]
  have before := h.passes (n := n + 2) x (fun j hj => by omega)
  have at10 := before.level (r.latest_take_replicate n x) (by omega) (fun e => start (by omega)) (by omega)
  have after := at10.passes (n := 5) x (fun j hj => by omega)
  rw [split, Receiver.take_append]
  rwa [show 16 * k + (8 - n) + (n + 2) + 1 + 5 = 16 * (k + 1) by omega] at after

/-- Bits driven whole, up to the stop bit, give their levels. -/
theorem Receiver.At.bits {k : Nat} {xs : List Bool} (h : r.At (16 * k) levels cs) (hk : 1 ≤ k) (few : k + xs.length ≤ 10) :
    (r.take (drivenSamples xs)).At (16 * (k + xs.length)) (levels ++ xs) cs := by
  induction xs generalizing r k levels with
  | nil => simpa [drivenSamples, Receiver.take] using h
  | cons x xs ih =>
    simp only [List.length_cons] at few
    have first := Receiver.At.bit (n := 8) (x := x) h le_rfl (by omega) (fun e => by omega)
    have rest := ih first (by omega) (by omega)
    have e : drivenSamples (x :: xs) = List.replicate 16 x ++ drivenSamples xs := by simp [drivenSamples]
    rw [e, Receiver.take_append, List.length_cons, show k + (xs.length + 1) = k + 1 + xs.length by omega]
    rwa [List.append_assoc] at rest

/-- Recessive samples lengthen the run of a receiver that hunts. -/
theorem Receiver.take_recessive (hunts : r.tick = none) (n : Nat) :
    (r.take (List.replicate n true)).tick = none ∧ (r.take (List.replicate n true)).recessive = r.recessive + n
      ∧ (r.take (List.replicate n true)).bits = r.bits ∧ (r.take (List.replicate n true)).counting = r.counting
      ∧ (r.take (List.replicate n true)).chars = r.chars := by
  induction n generalizing r with
  | zero => exact ⟨hunts, rfl, rfl, rfl, rfl⟩
  | succ n ih =>
    have e := Receiver.sample_of_hunting hunts true
    obtain ⟨tick, run, bits, counting, chars⟩ := ih (r := r.sample true) (by rw [e]; rfl)
    have cons : r.take (List.replicate (n + 1) true) = (r.sample true).take (List.replicate n true) := rfl
    rw [cons]
    refine ⟨tick, run.trans ?_, bits.trans ?_, counting.trans ?_, chars.trans ?_⟩ <;> rw [e]
    simp only [if_true]
    omega

/-- A recessive stop bit hands the character over, and leaves the receiver ready for the next. -/
theorem Receiver.At.stopBit (h : r.At 160 levels cs) :
    (r.take (List.replicate 16 true)).Ready (cs ++ [charOf (levels ++ [true])]) := by
  have split : List.replicate 16 true = List.replicate 10 true ++ (true :: List.replicate 5 true) := rfl
  obtain ⟨tick, bits, counting, chars⟩ :=
    (h.passes (n := 10) true (fun j hj => by omega)).stop (r.latest_take_replicate 8 true)
  obtain ⟨tick', run, bits', counting', chars'⟩ := Receiver.take_recessive tick 5
  rw [split, Receiver.take_append]
  exact ⟨.inr ⟨tick', by rw [Receiver.take, List.foldl_cons, ← Receiver.take, run]; omega⟩, bits'.trans bits,
    counting'.trans counting, chars'.trans chars⟩

/-- The first dominant sample of a character is its tick 0. -/
theorem Receiver.Ready.begin (h : r.Ready cs) : (r.sample false).At 1 [] cs := by
  obtain ⟨start | ⟨hunts, enough⟩, bits, counting, chars⟩ := h
  · exact Receiver.At.pass ⟨start, bits, counting, chars⟩ false (by decide) (by decide)
  · rw [Receiver.sample_of_hunting hunts]
    exact ⟨by simp [enough], bits, counting, chars⟩

/-- A byte is the number that its bits spell, bit 0 first (R5). -/
theorem byte_of_bits (b : Byte) : BitVec.ofNat 8 (([0, 1, 2, 3, 4, 5, 6, 7].map (fun i => b.getLsbD i)).reverse.foldl
    (fun a b => 2 * a + (if b then 1 else 0)) 0) = b := by
  revert b
  decide +kernel

/-- The character of a character's own levels. -/
theorem charOf_bits (c : RxChar) : charOf (RxChar.bits c) = c := by
  have data : ((RxChar.bits c).drop 1).take 8 = [0, 1, 2, 3, 4, 5, 6, 7].map (fun i => c.data.getLsbD i) := rfl
  have mark : (RxChar.bits c)[9]?.getD false = c.mark := rfl
  have stop : (RxChar.bits c)[10]?.getD false = c.stop := rfl
  rw [charOf, data, mark, stop, byte_of_bits]

/-- A framed character on a sound line is received as it was sent. -/
theorem Receiver.Ready.char (h : r.Ready cs) {c : RxChar} (framed : c.stop = true) :
    (r.take (drivenSamples (RxChar.bits c))).Ready (cs ++ [c]) := by
  obtain ⟨middle, parts, nine⟩ : ∃ middle, RxChar.bits c = [false] ++ middle ++ [true] ∧ middle.length = 9 :=
    ⟨[0, 1, 2, 3, 4, 5, 6, 7].map (fun i => c.data.getLsbD i) ++ [c.mark], by simp [RxChar.bits, framed], rfl⟩
  have samples : drivenSamples (RxChar.bits c)
      = false :: List.replicate 15 false ++ drivenSamples middle ++ List.replicate 16 true := by
    rw [parts]; simp [drivenSamples, List.replicate_succ]
  have start := Receiver.At.bit (k := 0) (n := 7) (x := false) h.begin (by decide) (by decide) (fun _ => rfl)
  have body := start.bits (xs := middle) (by decide) (by omega)
  rw [nine] at body
  have done := body.stopBit
  rw [List.nil_append, ← parts, charOf_bits] at done
  rw [samples, Receiver.take_append, Receiver.take_append]
  exact done

/-- Framed characters, back to back, are received as they were sent. -/
theorem Receiver.Ready.chars (h : r.Ready cs) {more : List RxChar} (framed : ∀ c ∈ more, c.stop = true) :
    (r.take (drivenSamples (more.flatMap RxChar.bits))).Ready (cs ++ more) := by
  induction more generalizing r cs with
  | nil => simpa [drivenSamples, Receiver.take] using h
  | cons c more ih =>
    have first := h.char (framed c (by simp))
    have rest := ih first (fun d hd => framed d (by simp [hd]))
    have e : drivenSamples ((c :: more).flatMap RxChar.bits)
        = drivenSamples (RxChar.bits c) ++ drivenSamples (more.flatMap RxChar.bits) := by simp [drivenSamples]
    rw [e, Receiver.take_append]
    rwa [List.append_assoc] at rest

theorem stop_of_mem_withMarks {i : Nat} {bs : List Byte} {c : RxChar} (h : c ∈ withMarks i bs) : c.stop = true := by
  induction bs generalizing i with
  | nil => simp [withMarks] at h
  | cons b bs ih =>
    rw [withMarks, List.mem_cons] at h
    obtain rfl | h := h
    · rfl
    · exact ih h

/-- A frame's samples on a sound line give a receiver the frame's characters (R3, R4). -/
theorem assembled_frameSamples (sender : Nat) (f : Frame) : assembled (frameSamples sender f) = frameChars sender f := by
  have ready : Receiver.atStart.Ready [] := ⟨.inl rfl, rfl, rfl, rfl⟩
  obtain ⟨_, _, _, chars⟩ := ready.chars (more := frameChars sender f) (fun c hc => stop_of_mem_withMarks hc)
  rw [assembled, if_pos (keepsBusy_frame sender f)]
  exact chars

end Sys2Proof.Machine
end

section
/-! PROOFS. The layout of a frame's characters, and its fields read back (R5 to R7). -/

namespace Sys2Proof.Machine

/-! ### Numbers as bytes, and the fields of a frame read back (R5, R6) -/

theorem mirror_mirror (b : Byte) : mirror (mirror b) = b := by
  revert b
  decide +kernel

theorem toNat_byte {v : Nat} (h : v < 256) : (BitVec.ofNat 8 v).toNat = v := by
  rw [BitVec.toNat_ofNat, Nat.mod_eq_of_lt h]

/-- A value in two bytes, high byte first. -/
theorem two_bytes {v : Nat} (h : v < 65536) : 256 * (BitVec.ofNat 8 (v / 256)).toNat + (BitVec.ofNat 8 v).toNat = v := by
  simp only [BitVec.toNat_ofNat]
  omega

/-- A value in three bytes, high byte first. -/
theorem three_bytes {v : Nat} (h : v < 16777216) :
    256 * (256 * (BitVec.ofNat 8 (v / 65536)).toNat + (BitVec.ofNat 8 (v / 256)).toNat) + (BitVec.ofNat 8 v).toNat = v := by
  simp only [BitVec.toNat_ofNat]
  omega

/-- A header character read back: the mirrored byte of a number (R5). -/
theorem header_number {v : Nat} (h : v < 256) :
    (mirror (BitVec.ofNat 8 (mirror (BitVec.ofNat 8 v)).toNat)).toNat = v := by
  rw [BitVec.ofNat_toNat, BitVec.setWidth_eq, mirror_mirror, toNat_byte h]

theorem byteAt_append_right (pre p : List Byte) (i : Nat) : byteAt (pre ++ p) (pre.length + i) = byteAt p i := by
  simp only [byteAt, List.getElem?_append_right (Nat.le_add_right _ _), Nat.add_sub_cancel_left]

theorem num2_append_right (pre p : List Byte) (i : Nat) : num2 (pre ++ p) (pre.length + i) = num2 p i := by
  simp only [num2, byteAt_append_right, Nat.add_assoc]

theorem byteAt_append_left {p : List Byte} {i : Nat} (h : i < p.length) (post : List Byte) :
    byteAt (p ++ post) i = byteAt p i := by
  simp [byteAt, List.getElem?_append_left h]

theorem inside_iff {lo hi v : Nat} : inside lo hi v = true ↔ lo ≤ v ∧ v ≤ hi := by
  simp [inside]

/-- The draws of a CHEST body are read back from where they stand (R6). -/
theorem readDraws_flatMap (draws : List Draw) (pre : List Byte)
    (fit : ∀ d ∈ draws, d.bin < 256 ∧ d.quantity < 65536) :
    readDraws (pre ++ draws.flatMap Draw.bytes) pre.length draws.length = draws := by
  induction draws generalizing pre with
  | nil => rfl
  | cons d draws ih =>
    obtain ⟨bin, quantity⟩ := fit d (by simp)
    have rest := ih (pre ++ d.bytes) (fun x hx => fit x (by simp [hx]))
    have three : d.bytes.length = 3 := rfl
    have first : byteAt (d.bytes ++ draws.flatMap Draw.bytes) 0 = d.bin := toNat_byte bin
    have second : num2 (d.bytes ++ draws.flatMap Draw.bytes) 1 = d.quantity := two_bytes quantity
    have here : byteAt (pre ++ (d.bytes ++ draws.flatMap Draw.bytes)) pre.length = d.bin :=
      (byteAt_append_right pre _ 0).trans first
    rw [List.flatMap_cons, List.length_cons, readDraws, here, num2_append_right, second, ← List.append_assoc]
    rw [List.length_append, three] at rest
    rw [rest]

/-- The number of draws in a frame: of a CHEST, none in the other kinds. -/
def Frame.drawCount : Frame → Nat
  | .chest _ r => r.draws.length
  | .closeCall .. | .closed .. | .tally .. | .claim .. | .void .. | .sample .. | .mark .. | .bin .. | .census .. => 0

theorem drawBytes_length (draws : List Draw) : (draws.flatMap Draw.bytes).length = 3 * draws.length := by
  have three : ∀ d : Draw, d.bytes.length = 3 := fun _ => rfl
  simp [List.length_flatMap, three, Nat.mul_comm]

theorem Frame.body_length (f : Frame) : f.body.length = bodyLength f.kind f.drawCount := by
  cases f with
  | chest n r =>
    simp only [Frame.body, Frame.kind, Frame.drawCount, bodyLength, be1, be2, List.length_append, List.length_cons,
      List.length_nil, drawBytes_length]
  | _ => rfl

theorem Frame.kind_range (f : Frame) : 1 ≤ f.kind ∧ f.kind ≤ 10 := by
  cases f <;> simp [Frame.kind]

theorem bodyLength_of_ne {kind : Nat} (h : kind ≠ 6) (m n : Nat) : bodyLength kind m = bodyLength kind n := by
  unfold bodyLength
  split
  case h_6 => exact absurd rfl h
  all_goals rfl

/-! ### The layout of a frame's characters (R5) -/

theorem frameData_eq (sender : Nat) (f : Frame) : frameData sender f
    = [mirror (BitVec.ofNat 8 f.kind), mirror (BitVec.ofNat 8 sender), BitVec.ofNat 8 (f.invoice / 256),
        BitVec.ofNat 8 f.invoice] ++ f.body := rfl

theorem frameData_length (sender : Nat) (f : Frame) :
    (frameData sender f).length = 4 + bodyLength f.kind f.drawCount := by
  rw [frameData_eq, List.length_append, Frame.body_length]; rfl

theorem frameBytes_length (sender : Nat) (f : Frame) :
    (frameBytes sender f).length = 6 + bodyLength f.kind f.drawCount := by
  rw [frameBytes, List.length_append, frameData_length, be2, List.length_cons, List.length_cons, List.length_nil]
  omega

/-- The check stands in the last two characters, behind all that it covers (R7). -/
theorem frameBytes_check (sender : Nat) (f : Frame) :
    (frameBytes sender f).take ((frameBytes sender f).length - 2) = frameData sender f
      ∧ num2 (frameBytes sender f) ((frameBytes sender f).length - 2) = (crc (frameData sender f)).toNat := by
  have length : (frameBytes sender f).length - 2 = (frameData sender f).length := by
    rw [frameBytes_length, frameData_length]; omega
  rw [length]
  refine ⟨List.take_left, ?_⟩
  have check := num2_append_right (frameData sender f) (be2 (crc (frameData sender f)).toNat) 0
  exact check.trans (two_bytes (crc (frameData sender f)).isLt)

/-- A frame in range fits its characters. -/
theorem Frame.invoice_lt {sender : Nat} {f : Frame} (h : f.inRange sender = true) : f.invoice < 65536 := by
  simp only [Frame.inRange, Bool.and_eq_true] at h
  obtain ⟨⟨_, invoice⟩, _⟩ := h
  split at invoice
  · simp only [decide_eq_true_eq] at invoice; omega
  · rw [inside_iff] at invoice; omega

theorem Frame.bodyInRange_of_inRange {sender : Nat} {f : Frame} (h : f.inRange sender = true) : f.bodyInRange = true := by
  simp only [Frame.inRange, Bool.and_eq_true] at h
  exact h.2

/-- The kind and the invoice of the header are read back (R5). -/
theorem header_frameData {sender : Nat} {f : Frame} (h : f.inRange sender = true) :
    (mirror (BitVec.ofNat 8 (byteAt (frameData sender f) 0))).toNat = f.kind ∧ num2 (frameData sender f) 2 = f.invoice :=
  ⟨header_number (by have := f.kind_range; omega), two_bytes (Frame.invoice_lt h)⟩

/-- The body of a CHEST is read back, draws and all (R6). -/
theorem readReport_frameData (sender n : Nat) {r : ChestReport} (h : r.inRange = true) (p : List Byte)
    (hp : p = frameData sender (.chest n r)) :
    (⟨byteAt p 4, num2 p 5, num2 p 7, num2 p 9, byteAt p 11, readDraws p 13 (byteAt p 12)⟩ : ChestReport) = r := by
  simp only [ChestReport.inRange, Bool.and_eq_true, inside_iff, List.all_eq_true, decide_eq_true_eq] at h
  obtain ⟨⟨⟨⟨⟨⟨⟨hserial, hgross⟩, htare⟩, hnet⟩, hflags⟩, hcount⟩, hdraws⟩, _⟩ := h
  obtain ⟨fixed, split, thirteen⟩ : ∃ fixed, p = fixed ++ r.draws.flatMap Draw.bytes ∧ fixed.length = 13 :=
    ⟨_, hp.trans (List.append_assoc _ _ _).symm, rfl⟩
  have count : byteAt p 12 = r.draws.length := hp ▸ toNat_byte (v := r.draws.length) (by omega)
  have groups : readDraws p 13 r.draws.length = r.draws := by
    rw [split, ← thirteen]
    exact readDraws_flatMap r.draws fixed (fun d hd => by have := hdraws d hd; omega)
  have serial : byteAt p 4 = r.serial := hp ▸ toNat_byte (v := r.serial) (by omega)
  have gross : num2 p 5 = r.gross := hp ▸ two_bytes (v := r.gross) (by omega)
  have tare : num2 p 7 = r.tare := hp ▸ two_bytes (v := r.tare) (by omega)
  have net : num2 p 9 = r.net := hp ▸ two_bytes (v := r.net) (by omega)
  have flags : byteAt p 11 = r.flags := hp ▸ toNat_byte (v := r.flags) (by omega)
  rw [count, groups, serial, gross, tare, net, flags]

/-- The frame is read back from the characters that the check covers (R5, R6). -/
theorem readFrame_frameData {sender : Nat} {f : Frame} (h : f.inRange sender = true) :
    readFrame (frameData sender f) = some f := by
  have body := Frame.bodyInRange_of_inRange h
  obtain ⟨kind, invoice⟩ := header_frameData h
  simp only [readFrame, kind, invoice]
  rcases f with _ | _ | ⟨n, answerTo, planned, high, packed, free, inProgress, net⟩ | _ | _ | ⟨n, r⟩ | _ | _ | _ | _
  case chest => exact congrArg some (congrArg (Frame.chest n) (readReport_frameData sender n body _ rfl))
  all_goals
    simp only [Frame.bodyInRange, Bool.and_eq_true, inside_iff, decide_eq_true_eq] at body
    simp [Frame.kind, Frame.invoice, frameData_eq, Frame.body, byteAt, num2, num3, be1, be2, be3]
    omega

end Sys2Proof.Machine
end

section
/-! PROOFS. The verdict on a whole frame, and every frame in range read back (R14 to R18; O58). -/

namespace Sys2Proof.Machine

/-! ### Sound characters (R4) -/

theorem allSound_iff {i : Nat} {cs : List RxChar} : allSound i cs = true
    ↔ ∀ k d, cs[k]? = some d → d.stop = true ∧ d.mark = decide (i + k < 4) := by
  induction cs generalizing i with
  | nil => simp [allSound]
  | cons c cs ih =>
    simp only [allSound, Bool.and_eq_true, beq_iff_eq, ih]
    constructor
    · rintro ⟨head, tail⟩ k d hd
      cases k with
      | zero => cases hd; exact head
      | succ k => rw [show i + (k + 1) = i + 1 + k by omega]; exact tail k d hd
    · intro all
      refine ⟨all 0 c rfl, fun k d hd => ?_⟩
      rw [show i + 1 + k = i + (k + 1) by omega]
      exact all (k + 1) d hd

/-- The first `n` characters are sound. -/
theorem allSound_take_iff {n : Nat} {cs : List RxChar} : allSound 0 (cs.take n) = true
    ↔ ∀ k d, k < n → cs[k]? = some d → d.stop = true ∧ d.mark = decide (k < 4) := by
  simp only [allSound_iff, List.getElem?_take, zero_add]
  constructor
  · exact fun all k d hk hd => all k d (by rwa [if_pos hk])
  · intro all k d hd
    split at hd
    · next hk => exact all k d hk hd
    · cases hd

theorem withMarks_getElem? {i k : Nat} {bs : List Byte} :
    (withMarks i bs)[k]? = bs[k]?.map (fun b => ⟨b, decide (i + k < 4), true⟩) := by
  induction bs generalizing i k with
  | nil => simp [withMarks]
  | cons b bs ih =>
    cases k with
    | zero => simp [withMarks]
    | succ k => simp only [withMarks, List.getElem?_cons_succ, ih, show i + 1 + k = i + (k + 1) by omega]

theorem frameChars_data (sender : Nat) (f : Frame) : (frameChars sender f).map (·.data) = frameBytes sender f := by
  ext1 k
  simp [frameChars, withMarks_getElem?, Option.map_map, Function.comp_def]

theorem frameChars_length (sender : Nat) (f : Frame) :
    (frameChars sender f).length = 6 + bodyLength f.kind f.drawCount := by
  rw [← frameBytes_length sender f, ← frameChars_data, List.length_map]

/-- A frame's characters on a sound line are sound. -/
theorem frameChars_sound (sender : Nat) (f : Frame) (k : Nat) (d : RxChar) (h : (frameChars sender f)[k]? = some d) :
    d.stop = true ∧ d.mark = decide (k < 4) := by
  rw [frameChars, withMarks_getElem?, Option.map_eq_some_iff] at h
  obtain ⟨b, _, rfl⟩ := h
  simp

/-! ### What a receiver finds in whole frames (R14 to R18) -/

/-- The kind that H1 names, as a receiver reads it (R5). -/
def kindOf (cs : List RxChar) : Nat := (mirror (BitVec.ofNat 8 (byteAt (cs.map (·.data)) 0))).toNat

theorem kindOf_eq (cs : List RxChar) : (mirror (BitVec.ofNat 8 (byteAt (cs.map (·.data)) 0))).toNat = kindOf cs := rfl

theorem kindOf_cons (c : RxChar) (cs : List RxChar) : kindOf (c :: cs) = (mirror c.data).toNat := by
  simp [kindOf, byteAt]

/-- A receiver judges the whole frame when its length is known, all its characters are there, framing has not been lost,
and the topic filter lets it pass (R14 to R16). -/
theorem judge_whole {has : Nat → Bool} {cs : List RxChar} (first : allSound 0 (cs.take 1) = true)
    (kind : 1 ≤ kindOf cs ∧ kindOf cs ≤ 10)
    (length : cs.length = 6 + bodyLength (kindOf cs) (byteAt (cs.map (·.data)) 12))
    (chest : kindOf cs = 6 → allSound 0 (cs.take 13) = true ∧ inside 1 4 (byteAt (cs.map (·.data)) 12) = true)
    (topic : kindOf cs = 6 ∨ kindOf cs = 9 ∨ has (num2 (cs.map (·.data)) 2) = true ∨ allSound 0 (cs.take 4) = false) :
    judge has cs = judgeWhole cs := by
  have range : inside 1 10 (kindOf cs) = true := inside_iff.2 kind
  have nonempty : ¬ cs.length = 0 := by omega
  unfold judge
  dsimp only
  rw [kindOf_eq, if_neg nonempty, first, range, if_neg (by decide)]
  by_cases six : kindOf cs = 6
  · obtain ⟨sound, draws⟩ := chest six
    rw [six] at length
    have long : ¬ cs.length < 13 := by simp only [bodyLength] at length; omega
    rw [if_pos six, sound, if_neg (by decide), if_neg long, draws, if_neg (by decide), if_neg (not_not.2 length)]
  · rw [bodyLength_of_ne six _ 0] at length
    have passes : ¬ ((kindFiltered (kindOf cs) && allSound 0 (cs.take 4) && !has (num2 (cs.map (·.data)) 2)) = true) := by
      rcases topic with h | h | h | h
      · exact absurd h six
      · simp [kindFiltered, h]
      · simp [h]
      · simp [h]
    rw [if_neg six, if_neg (by omega), if_neg passes, if_neg (not_not.2 length)]

/-- The sender that H2 of a frame names. -/
theorem sender_frameBytes {sender : Nat} (h : sender < 256) (f : Frame) :
    (mirror (BitVec.ofNat 8 (byteAt (frameBytes sender f) 1))).toNat = sender := header_number h

/-- A frame in range on a sound line is judged as taken (R16 to R18). -/
theorem judgeWhole_frameChars {sender : Nat} {f : Frame} (h : f.inRange sender = true) :
    judgeWhole (frameChars sender f) = .taken sender f := by
  have small : sender < 256 := by
    simp only [Frame.inRange, Bool.and_eq_true, inside_iff] at h
    omega
  have sound : allSound 0 (frameChars sender f) = true :=
    allSound_iff.2 (fun k d hd => by simpa using frameChars_sound sender f k d hd)
  obtain ⟨covered, check⟩ := frameBytes_check sender f
  simp [judgeWhole, sound, frameChars_data, covered, check, readFrame_frameData h, sender_frameBytes small, h]

/-- A frame in range on a sound line is read back as it was sent, unless the topic filter drops it (R15, R18). -/
theorem judge_frameChars {has : Nat → Bool} {sender : Nat} {f : Frame} (h : f.inRange sender = true)
    (topic : has f.invoice = true ∨ f.kind = 6 ∨ f.kind = 9) : judge has (frameChars sender f) = .taken sender f := by
  have data := frameChars_data sender f
  have long := frameData_length sender f
  have byte : ∀ i < (frameData sender f).length, byteAt (frameBytes sender f) i = byteAt (frameData sender f) i :=
    fun i hi => byteAt_append_left hi _
  obtain ⟨readKind, readInvoice⟩ := header_frameData h
  have kind : kindOf (frameChars sender f) = f.kind := by rw [kindOf, data, byte 0 (by omega), readKind]
  have invoice : num2 (frameBytes sender f) 2 = f.invoice := by
    rw [num2, byte 2 (by omega), byte 3 (by omega)]; exact readInvoice
  have sound : ∀ n, allSound 0 ((frameChars sender f).take n) = true :=
    fun n => allSound_take_iff.2 (fun k d _ hd => frameChars_sound sender f k d hd)
  have draws : f.kind = 6 → byteAt (frameBytes sender f) 12 = f.drawCount ∧ inside 1 4 f.drawCount = true := by
    intro six
    cases f with
    | chest n r =>
      have body := Frame.bodyInRange_of_inRange h
      simp only [Frame.bodyInRange, ChestReport.inRange, Bool.and_eq_true] at body
      obtain ⟨⟨⟨_, count⟩, _⟩, _⟩ := body
      refine ⟨?_, count⟩
      rw [byte 12 (by rw [long]; simp only [Frame.kind, bodyLength]; omega)]
      exact toNat_byte (v := r.draws.length) (by rw [inside_iff] at count; omega)
    | _ => simp [Frame.kind] at six
  rw [judge_whole (sound 1) (by rw [kind]; exact f.kind_range), judgeWhole_frameChars h]
  · rw [kind, data, frameChars_length]
    by_cases six : f.kind = 6
    · rw [(draws six).1]
    · rw [bodyLength_of_ne six]
  · rw [kind, data]
    exact fun six => ⟨sound 13, (draws six).1 ▸ (draws six).2⟩
  · rw [kind, data, invoice]
    tauto

/-- Settles O58: the verdict on a frame's own characters, and its samples as a receiver assembles them. -/
theorem framesReadBack : Obligations.FramesReadBack :=
  ⟨fun _ _ _ h topic => judge_frameChars h topic, assembled_frameSamples⟩

end Sys2Proof.Machine
end

section
/-! PROOFS. Frames that a receiver does not take, and the stale request (R14 to R17, R41; O35). -/

namespace Sys2Proof.Machine

/-! ### Verdicts that give a frame up (R14 to R17) -/

theorem allSound_take_eq_false {n i : Nat} {cs : List RxChar} {d : RxChar} (hi : i < n) (hd : cs[i]? = some d)
    (bad : d.stop = false ∨ d.mark ≠ decide (i < 4)) : allSound 0 (cs.take n) = false := by
  rw [← Bool.not_eq_true, allSound_take_iff]
  intro all
  obtain ⟨stop, mark⟩ := all i d hi hd
  rcases bad with unframed | wrong
  · exact absurd (stop.symm.trans unframed) (by decide)
  · exact wrong mark

/-- Framing is lost at H1 (R14). -/
theorem judge_lost_first {has : Nat → Bool} {cs : List RxChar} (nonempty : cs ≠ [])
    (bad : allSound 0 (cs.take 1) = false ∨ inside 1 10 (kindOf cs) = false) : judge has cs = .lost := by
  have long : ¬ cs.length = 0 := by simpa using nonempty
  have lost : (!allSound 0 (cs.take 1) || !inside 1 10 (kindOf cs)) = true := by rcases bad with h | h <;> simp [h]
  unfold judge
  dsimp only
  rw [kindOf_eq, if_neg long, if_pos lost]

/-- Framing is lost in the characters of a CHEST up to its draw count (R14). -/
theorem judge_lost_chest {has : Nat → Bool} {cs : List RxChar} (chest : kindOf cs = 6)
    (bad : allSound 0 (cs.take 13) = false ∨ (13 ≤ cs.length ∧ inside 1 4 (byteAt (cs.map (·.data)) 12) = false))
    (nonempty : cs ≠ []) : judge has cs = .lost := by
  by_cases first : allSound 0 (cs.take 1) = false
  · exact judge_lost_first nonempty (.inl first)
  have long : ¬ cs.length = 0 := by simpa using nonempty
  have found : ¬ ((!allSound 0 (cs.take 1) || !inside 1 10 6) = true) := by simpa [inside] using first
  unfold judge
  dsimp only
  rw [kindOf_eq, if_neg long, chest, if_neg found, if_pos rfl]
  by_cases sound : allSound 0 (cs.take 13) = false
  · rw [if_pos (by simp [sound])]
  · obtain ⟨enough, count⟩ := bad.resolve_left sound
    rw [if_neg (by simpa using sound), if_neg (by omega), if_pos (by simp [count])]

/-- A sound header of a filtered kind for an invoice that is not in the table is filtered out (R15). -/
theorem judge_filtered {has : Nat → Bool} {cs : List RxChar} (kind : kindOf cs ∈ [1, 2, 3, 4, 5, 7, 8, 10])
    (four : cs.length = 4) (sound : allSound 0 cs = true) (absent : has (num2 (cs.map (·.data)) 2) = false) :
    judge has cs = .filtered := by
  have take4 : cs.take 4 = cs := List.take_of_length_le four.le
  have first : allSound 0 (cs.take 1) = true :=
    allSound_take_iff.2 (fun k d hk hd => by simpa using allSound_iff.1 sound k d hd)
  have range : inside 1 10 (kindOf cs) = true := by
    rw [inside_iff]; simp only [List.mem_cons, List.not_mem_nil, or_false] at kind; omega
  have other : kindOf cs ≠ 6 := by intro h; rw [h] at kind; exact absurd kind (by decide)
  have topic : kindFiltered (kindOf cs) = true := by
    simp only [kindFiltered, Bool.and_eq_true, decide_eq_true_eq]
    exact ⟨other, fun h => by rw [h] at kind; exact absurd kind (by decide)⟩
  have nonempty : ¬ cs.length = 0 := by omega
  unfold judge
  dsimp only
  rw [kindOf_eq, if_neg nonempty, first, range, if_neg (by decide), if_neg other, if_neg (by omega), take4, sound, topic,
    absent]
  rfl

theorem judgeWhole_unsound {cs : List RxChar} (h : allSound 0 cs = false) : judgeWhole cs = .naked := by
  simp [judgeWhole, h]

theorem judgeWhole_check {cs : List RxChar} (p : List Byte) (hp : p = cs.map (·.data))
    (h : (crc (p.take (p.length - 2))).toNat ≠ num2 p (p.length - 2)) : judgeWhole cs = .naked := by
  subst hp
  simp only [judgeWhole, if_pos h, ite_self]

theorem judgeWhole_range {cs : List RxChar} (p : List Byte) (hp : p = cs.map (·.data)) {f : Frame}
    (read : readFrame (p.take (p.length - 2)) = some f)
    (h : f.inRange (mirror (BitVec.ofNat 8 (byteAt p 1))).toNat = false) : judgeWhole cs = .naked := by
  subst hp
  unfold judgeWhole
  simp only [read, h]
  split
  · rfl
  · split <;> rfl

/-! ### Which characters a receiver follows (R11, R15, R21) -/

theorem State.follows_of_receiver {s : State} {live : Bool} (role : s.line.role = .receiver live) (cs : List RxChar) :
    s.follows cs = s.line.assembler.agrees cs := by
  cases live <;> simp [State.follows, State.following, role]

theorem State.follows_of_not_receiver {s : State} (role : s.line.role = .none ∨ s.line.role = .sender) (cs : List RxChar) :
    s.follows cs = false := by
  rcases role with h | h <;> simp [State.follows, State.following, h]

/-- The receiver's own finding after H4: the filter is not applied again (R15). -/
theorem State.judged_eq (s : State) (cs : List RxChar) :
    s.judged cs = judge (fun _ => decide (4 ≤ s.line.assembler.chars.length) || !s.hears) cs := rfl

/-! ### The rows of a frame that is not taken -/

theorem frameLost_acts {s : State} {samples : List Bool} (follows : s.follows (assembled samples) = true)
    (lost : s.judged (assembled samples) = .lost) : exec (.frameLost samples) s = .next
      { s with line := { s.lineAfter samples .none with lost := s.line.role = .receiver true } } := by
  change execFrameLost samples s = _
  have role : (s.line.restart.pass samples).role = s.line.role := by rw [Line.pass_eq]; rfl
  rw [execFrameLost, if_pos (by simp [follows, lost]), Line.loseFraming, State.pass_frameOver, role]
  rfl

theorem frameLost_idles {s : State} {samples : List Bool}
    (h : s.follows (assembled samples) = false ∨ s.judged (assembled samples) ≠ .lost) :
    exec (.frameLost samples) s = .next s :=
  congrArg Host.Outcome.next (if_neg (by rcases h with h | h <;> simp [h]))

theorem frameFiltered_acts {s : State} {samples : List Bool} (follows : s.follows (assembled samples) = true)
    (header : s.line.assembler.chars.length < 4) :
    exec (.frameFiltered samples) s = .next (s.headerEnds samples (assembled samples)) := by
  have waits : s.line.assembler.passed = false := by simp [Assembler.passed, header]
  exact congrArg Host.Outcome.next (if_pos (by simp [follows, waits]))

theorem frameFiltered_idles {s : State} {samples : List Bool}
    (h : s.follows (assembled samples) = false ∨ 4 ≤ s.line.assembler.chars.length) :
    exec (.frameFiltered samples) s = .next s :=
  congrArg Host.Outcome.next (if_neg (by rcases h with h | h <;> simp [h, Assembler.passed]))

/-- A frame that the filter drops at the end of H4 (R15, R32). -/
theorem headerEnds_filtered {s : State} {samples : List Bool} {cs : List RxChar}
    (h : judge s.books.hasInvoice cs = .filtered) : s.headerEnds samples cs = { s with
      line := s.lineAfter samples .none,
      books := if s.hears then s.books.setRepeat (senderOf cs) none else s.books } := by
  simp only [State.headerEnds, h, State.filterOut, State.pass_frameOver]
  split <;> rfl

/-- A frame that passes the filter at the end of H4: the header is kept (R15). -/
theorem headerEnds_passes {s : State} {samples : List Bool} {c₁ c₂ c₃ c₄ : RxChar}
    (h : judge s.books.hasInvoice [c₁, c₂, c₃, c₄] = .unfinished) : s.headerEnds samples [c₁, c₂, c₃, c₄] = { s with
      line := { s.line with
        recessiveRun := trailing true samples, dominantRun := trailing false samples,
        assembler :=
          { chars := [c₁.data, c₂.data, c₃.data, c₄.data], bits := [],
            expected := if (mirror c₁.data).toNat = 6 then none else some (6 + bodyLength (mirror c₁.data).toNat 0),
            error := decide (∃ d ∈ [c₁, c₂, c₃, c₄], d.stop = false ∨ d.mark = false) } } } := by
  have error : (!allSound 0 [c₁, c₂, c₃, c₄]) = decide (∃ d ∈ [c₁, c₂, c₃, c₄], d.stop = false ∨ d.mark = false) := by
    rw [Bool.eq_iff_iff]
    simp [allSound]
  have expected : expectedChars [c₁.data, c₂.data, c₃.data, c₄.data]
      = if (mirror c₁.data).toNat = 6 then none else some (6 + bodyLength (mirror c₁.data).toNat 0) := by
    simp [expectedChars]
  have keeps : s.headerEnds samples [c₁, c₂, c₃, c₄]
      = s.setLine ((s.line.restart.pass samples).keepHeader [c₁, c₂, c₃, c₄]) := by
    simp [State.headerEnds, h]
  rw [keeps, Line.keepHeader, error, Line.pass_eq]
  simp [State.setLine, Line.restart, expected]

/-- Too few characters for a header end nothing. -/
theorem headerEnds_nil (s : State) (samples : List Bool) : s.headerEnds samples [] = s := rfl

theorem frameNaked_acts {s : State} {x : FrameSamples} (follows : s.follows (assembled x.body) = true)
    (naked : s.judged (assembled x.body) = .naked) : exec (.frameNaked x) s = .next (s.nakFrame x.body x.slots) :=
  congrArg Host.Outcome.next (if_pos (by simp [follows, naked]))

theorem frameNaked_idles {s : State} {x : FrameSamples}
    (h : s.follows (assembled x.body) = false ∨ s.judged (assembled x.body) ≠ .naked) :
    exec (.frameNaked x) s = .next s :=
  congrArg Host.Outcome.next (if_neg (by rcases h with h | h <;> simp [h]))

/-- A NAKed frame: heard, the NAK slot is driven with a stale request; else the frame is over (R16, R21). -/
theorem nakFrame_eq (s : State) (heard : List Bool) (x : SlotSamples) :
    (s.hears = true → s.nakFrame heard x
      = { s with line := s.lineAfter (heard ++ slotSamples x .nak) .nak, books := s.books.staleRequest })
    ∧ (s.hears = false → s.nakFrame heard x = { s with line := s.lineAfter (heard ++ slotSamples x .none) .none }) := by
  refine ⟨fun h => ?_, fun h => ?_⟩ <;> simp only [State.nakFrame, h, State.frameEnds_eq] <;> rfl

/-! ### Frames heard that are not taken (R17, R21) -/

theorem receive_unfollowed {s : State} {q : Sender} {f : Frame} (hand : Books → Books)
    (h : s.follows (frameChars q.number.toNat f) = false) : s.receive q f hand = s := by
  simp [State.receive, h]

/-- The row of a frame heard is the frame's end at a receiver, but for a CHEST whose draw count may lose framing. -/
theorem exec_heard {c : Instr} {q : Sender} {f : Frame} (s : State) (h : heardOf c = some (q, f)) :
    (∃ hand, exec c s = .next (s.receive q f hand))
    ∨ ∃ n r, f = .chest n r ∧ exec c s = .next (s.receiveReport q n r) := by
  cases c with
  | chestFrame => cases h; exact .inr ⟨_, _, rfl, rfl⟩
  | closeCallFrame | closedFrame | tallyFrame | claimFrame | voidFrame | sampleFrame | markFrame | binFrame
  | censusFrame => cases h; exact .inl ⟨_, rfl⟩
  | _ => cases h

theorem exec_heard_unfollowed {c : Instr} {q : Sender} {f : Frame} {s : State} (h : heardOf c = some (q, f))
    (unfollowed : s.follows (frameChars q.number.toNat f) = false) : exec c s = .next s := by
  obtain ⟨hand, acts⟩ | ⟨n, r, rfl, acts⟩ := exec_heard s h
  · rw [acts, receive_unfollowed hand unfollowed]
  · rw [acts, State.receiveReport, unfollowed, receive_unfollowed _ unfollowed]
    split <;> rfl

/-- With a draw count of 1 to 4 every row of a frame heard is the frame's end at a receiver. -/
theorem exec_heard_receive {c : Instr} {q : Sender} {f : Frame} (s : State) (h : heardOf c = some (q, f))
    (draws : ∀ n r, f = .chest n r → 1 ≤ r.draws.length ∧ r.draws.length ≤ 4) :
    ∃ hand, exec c s = .next (s.receive q f hand) := by
  obtain acts | ⟨n, r, rfl, acts⟩ := exec_heard s h
  · exact acts
  · exact ⟨_, by rw [acts, State.receiveReport, if_pos (inside_iff.2 (draws n r rfl))]⟩

/-- A frame that is followed and not taken: discarded, not ended, or NAKed (R17, R21; log 37). -/
theorem receive_not_taken {s : State} {q : Sender} {f : Frame} (hand : Books → Books)
    (follows : s.follows (frameChars q.number.toNat f) = true) :
    (s.hears = false → s.receive q f hand = { s with line := s.lineOver q.slots .none })
    ∧ (s.hears = true → f.kind ≠ 6 → f.kind ≠ 9 → s.line.assembler.chars.length < 4 → s.receive q f hand = s)
    ∧ (s.hears = true → (f.kind = 6 ∨ f.kind = 9 ∨ 4 ≤ s.line.assembler.chars.length) →
      f.inRange q.number.toNat = false →
        s.receive q f hand = { s with line := s.lineOver q.slots .nak, books := s.books.staleRequest }) := by
  refine ⟨fun deaf => ?_, fun hears chest bin header => ?_, fun hears settled range => ?_⟩
  · simp only [State.receive, follows, deaf, State.frameEnds_stop]
    rfl
  · simp [State.receive, follows, hears, kindFiltered, chest, bin, State.topicSettled, Assembler.passed, header]
  · have ends : (kindFiltered f.kind && !s.topicSettled) = false := by
      rcases settled with h | h | h <;> simp [kindFiltered, State.topicSettled, Assembler.passed, h]
    simp only [State.receive, follows, hears, ends, range]
    exact (nakFrame_eq s stopSamples q.slots).1 hears

/-! ### The stale request (R41) -/

theorem modifyInvoice_modifyInvoice (b : Books) (n : Nat) {f g : Invoice → Invoice} (number : ∀ r, (f r).number = r.number) :
    (b.modifyInvoice n f).modifyInvoice n g = b.modifyInvoice n (fun r => g (f r)) := by
  simp only [Books.modifyInvoice, List.map_map]
  congr 2
  funext r
  simp only [Function.comp]
  split
  · next h => rw [if_pos ((number r).trans h)]
  · rfl

theorem staleRecord_absent {b : Books} {n : Nat} (h : b.invoice? n = none) : b.staleRecord n = b := by
  simp only [Books.staleRecord, h]

/-- An ACTIVE record at rest goes STALE with a new census (R37, R41). -/
theorem staleRecord_active {b : Books} {n : Nat} {r : Invoice} (h : b.invoice? n = some r) (state : r.state = .active)
    (phase : r.phase = .none) : b.staleRecord n
      = (b.modifyInvoice n (fun r => { r with state := .stale, phase := .queued })).queueFrame none
          (.census n r.planned) := by
  have found : (b.modifyInvoice n (fun r => { r with state := .stale })).invoice? n = some { r with state := .stale } := by
    rw [b.invoice?_modifyInvoice n n (fun _ => by rfl), if_pos rfl, h]
    rfl
  simp only [Books.staleRecord, h, state, phase, Books.startCensus, found]
  rw [modifyInvoice_modifyInvoice b n (fun _ => by rfl)]

/-- What a stale request does to one record, by its state and census phase (R41). -/
theorem staleRecord_cases {b : Books} {n : Nat} {r : Invoice} (h : b.invoice? n = some r) :
    ((r.state = .census ∨ r.state = .stale) → r.phase = .queued →
      b.staleRecord n = b.modifyInvoice n (fun r => { r with state := .stale }))
    ∧ (∀ ends, (r.state = .census ∨ r.state = .stale) → r.phase = .window ends →
      b.staleRecord n = b.modifyInvoice n (fun r => { r with state := .stale, recount := true }))
    ∧ ((r.state = .closing ∨ r.state = .closed) → b.staleRecord n = b) := by
  refine ⟨?_, ?_, ?_⟩
  · rintro (state | state) phase <;> simp only [Books.staleRecord, h, state, phase]
  · rintro ends (state | state) phase <;> simp only [Books.staleRecord, h, state, phase]
  · rintro (state | state) <;> simp only [Books.staleRecord, h, state]

/-! ### O35, clause by clause -/

/-- The rows FRAME_LOST and FRAME_FILTERED at a receiver (R14, R15). -/
theorem lost_and_filtered_rows {s : State} {live : Bool} {samples : List Bool} {cs : List RxChar}
    (role : s.line.role = .receiver live) (hcs : cs = assembled samples) :
    (s.line.assembler.agrees cs = true →
      (s.judged cs = .lost → exec (.frameLost samples) s = .next
        { s with line := { s.lineAfter samples .none with lost := live } })
      ∧ (s.line.assembler.chars.length < 4 → judge s.books.hasInvoice cs = .filtered →
        (s.hears = true → exec (.frameFiltered samples) s = .next
          { s with line := s.lineAfter samples .none, books := s.books.setRepeat (senderOf cs) none })
        ∧ (s.hears = false → exec (.frameFiltered samples) s = .next { s with line := s.lineAfter samples .none }))
      ∧ (s.line.assembler.chars.length < 4 → judge s.books.hasInvoice cs = .unfinished → ∀ c₁ c₂ c₃ c₄,
        cs = [c₁, c₂, c₃, c₄] → exec (.frameFiltered samples) s = .next { s with line := { s.line with
          recessiveRun := trailing true samples, dominantRun := trailing false samples,
          assembler :=
            { chars := [c₁.data, c₂.data, c₃.data, c₄.data], bits := [],
              expected := if (mirror c₁.data).toNat = 6 then none else some (6 + bodyLength (mirror c₁.data).toNat 0),
              error := decide (∃ d ∈ cs, d.stop = false ∨ d.mark = false) } } }))
    ∧ ((s.line.assembler.agrees cs = false ∨ 4 ≤ s.line.assembler.chars.length) →
        exec (.frameFiltered samples) s = .next s)
    ∧ (s.line.assembler.agrees cs = false → exec (.frameLost samples) s = .next s) := by
  rw [← State.follows_of_receiver role]
  refine ⟨fun follows => ⟨fun lost => ?_, fun header filtered => ?_, fun header unfinished c₁ c₂ c₃ c₄ four => ?_⟩, ?_, ?_⟩
  · subst hcs
    rw [frameLost_acts follows lost, role]
    cases live <;> rfl
  · rw [frameFiltered_acts (hcs ▸ follows) header, ← hcs, headerEnds_filtered filtered]
    exact ⟨fun hears => by rw [if_pos hears], fun deaf => by rw [if_neg (by simp [deaf])]⟩
  · rw [frameFiltered_acts (hcs ▸ follows) header, ← hcs, four, headerEnds_passes (four ▸ unfinished)]
  · exact fun idle => frameFiltered_idles (hcs ▸ idle)
  · exact fun unfollowed => frameLost_idles (.inl (hcs ▸ unfollowed))

/-- The row FRAME_NAKED at a receiver (R16, R17). -/
theorem naked_row {s : State} {live : Bool} {x : FrameSamples} {cs : List RxChar}
    (role : s.line.role = .receiver live) (hcs : cs = assembled x.body) :
    (s.line.assembler.agrees cs = false → exec (.frameNaked x) s = .next s)
    ∧ (s.line.assembler.agrees cs = true →
      (s.judged cs = .naked →
        (s.hears = true → exec (.frameNaked x) s = .next
          { s with line := s.lineAfter (x.body ++ slotSamples x.slots .nak) .nak, books := s.books.staleRequest })
        ∧ (s.hears = false → exec (.frameNaked x) s = .next
          { s with line := s.lineAfter (x.body ++ slotSamples x.slots .none) .none }))
      ∧ (s.judged cs ≠ .naked → exec (.frameNaked x) s = .next s)) := by
  rw [← State.follows_of_receiver role]
  subst hcs
  obtain ⟨heard, deaf⟩ := nakFrame_eq s x.body x.slots
  exact ⟨fun unfollowed => frameNaked_idles (.inl unfollowed), fun follows => ⟨fun naked =>
    ⟨fun h => by rw [frameNaked_acts follows naked, heard h], fun h => by rw [frameNaked_acts follows naked, deaf h]⟩,
    fun other => frameNaked_idles (.inr other)⟩⟩

/-- A row whose samples hold an idle gap or a held line gives no character, and ends nothing (R9, R14). -/
theorem gap_rows (s : State) {pre gap post : List Bool} (x : SlotSamples)
    (h : gap = List.replicate 176 true ∨ gap = List.replicate 384 false) :
    assembled (pre ++ gap ++ post) = [] ∧ exec (.frameLost (pre ++ gap ++ post)) s = .next s
      ∧ exec (.frameFiltered (pre ++ gap ++ post)) s = .next s
      ∧ exec (.frameNaked ⟨pre ++ gap ++ post, x⟩) s = .next s := by
  have empty := assembled_gap pre gap post h
  have unfinished : s.judged [] = .unfinished := rfl
  refine ⟨empty, frameLost_idles (.inr ?_), ?_, frameNaked_idles (.inr ?_)⟩
  · rw [empty, unfinished]; decide
  · change Host.Outcome.next (if _ then s.headerEnds (pre ++ gap ++ post) (assembled (pre ++ gap ++ post)) else s) = _
    rw [empty, headerEnds_nil, ite_self]
  · rw [empty, unfinished]; decide

/-- Settles O35: the receiver's verdicts, the rows that carry them, and the stale request record by record. -/
theorem framesNotTakenAreGivenUp : Obligations.FramesNotTakenAreGivenUp := by
  refine ⟨?_, ?_, ?_, ?_, fun _ _ _ _ role hcs => lost_and_filtered_rows role hcs, fun _ _ _ _ role hcs => naked_row role hcs,
    State.judged_eq, fun s _ _ _ x h => gap_rows s x h, ?_, ?_, ?_⟩
  · intro has c l bad
    have range : ((mirror c.data).toNat = 0 ∨ 10 < (mirror c.data).toNat) → inside 1 10 (kindOf (c :: l)) = false := by
      rw [kindOf_cons, ← Bool.not_eq_true, inside_iff]
      omega
    refine judge_lost_first (by simp) ?_
    rcases bad with stop | mark | kind
    · exact .inl (allSound_take_eq_false Nat.zero_lt_one (d := c) rfl (.inl stop))
    · exact .inl (allSound_take_eq_false Nat.zero_lt_one (d := c) rfl (.inr (by simp [mark])))
    · exact .inr (range kind)
  · intro has c l chest
    rw [← kindOf_cons c l] at chest
    refine ⟨?_, fun d hd bad => ?_⟩
    · rintro ⟨i, d, hi, hd, bad⟩
      exact judge_lost_chest chest (.inl (allSound_take_eq_false hi hd bad)) (by simp)
    · have long : 11 < l.length := (List.getElem?_eq_some_iff.1 hd).1
      have count : byteAt ((c :: l).map (·.data)) 12 = d.data.toNat := by simp [byteAt, hd]
      refine judge_lost_chest chest (.inr ⟨by rw [List.length_cons]; omega, ?_⟩) (by simp)
      rw [count, ← Bool.not_eq_true, inside_iff]
      omega
  · intro has c₁ c₂ c₃ c₄ sound kind absent
    refine judge_filtered (by rwa [kindOf_cons]) rfl ?_ absent
    simp [allSound, sound]
  · intro has c cs kind p head stop mark hk low high hp length chest topic
    obtain ⟨rest, rfl⟩ : ∃ rest, cs = c :: rest := List.head?_eq_some_iff.1 head
    have kind_eq : kindOf (c :: rest) = kind := (kindOf_cons c rest).trans hk.symm
    have whole : judge has (c :: rest) = judgeWhole (c :: rest) := by
      refine judge_whole ?_ (by rw [kind_eq]; exact ⟨low, high⟩) (by rw [kind_eq, ← hp]; exact length) ?_ ?_
      · simp [allSound, stop, mark]
      · rw [kind_eq, ← hp]
        intro six
        obtain ⟨one, four, sound⟩ := chest six
        exact ⟨allSound_take_iff.2 sound, inside_iff.2 ⟨one, four⟩⟩
      · rw [kind_eq, ← hp]
        refine topic.imp_right (Or.imp_right (Or.imp_right ?_))
        rintro ⟨i, d, hi, hd, bad⟩
        exact allSound_take_eq_false hi hd (bad.imp_right (fun mark => by simp [mark, hi]))
    rw [whole]
    refine ⟨?_, judgeWhole_check p hp, fun f read range => judgeWhole_range p hp read range⟩
    rintro ⟨i, d, hd, bad⟩
    have unsound := allSound_take_eq_false (List.getElem?_eq_some_iff.1 hd).1 hd bad
    exact judgeWhole_unsound (by rwa [List.take_length] at unsound)
  · intro s samples x role
    have unfollowed := State.follows_of_not_receiver role
    exact ⟨frameLost_idles (.inl (unfollowed _)), frameFiltered_idles (.inl (unfollowed _)),
      frameNaked_idles (.inl (unfollowed _)), fun c q f h => exec_heard_unfollowed h (unfollowed _)⟩
  · intro s c q f live heard draws role
    rw [← State.follows_of_receiver role]
    obtain ⟨hand, acts⟩ := exec_heard_receive s heard draws
    rw [acts]
    refine ⟨fun unfollowed => by rw [receive_unfollowed hand unfollowed], fun follows => ?_⟩
    obtain ⟨deaf, early, naked⟩ := receive_not_taken hand follows
    exact ⟨fun h => by rw [deaf h], fun h h₆ h₉ h₄ => by rw [early h h₆ h₉ h₄], fun h settled range => by
      rw [naked h settled range]⟩
  · intro b
    refine ⟨rfl, fun n => ⟨staleRecord_absent, fun r h => ?_⟩⟩
    obtain ⟨queued, window, closed⟩ := staleRecord_cases h
    exact ⟨staleRecord_active h, queued, window, closed⟩

end Sys2Proof.Machine
end

section
/-! PROOFS. Lost arbitration, and the entry to OFFLINE (R11, R12, R124, R171; O33). -/

namespace Sys2Proof.Machine

/-! ### The entry under way, and lost arbitration (R26, R30) -/

section UnderWay
variable {b : Books} {pre post : List TxEntry} {e : TxEntry}

theorem Books.sending_eq (tx : b.tx = pre ++ e :: post) (others : ∀ x ∈ pre ++ post, x.underWay = false)
    (under : e.underWay = true) : b.sending = some e := by
  rw [Books.sending, tx, List.find?_append, List.find?_eq_none.2 (fun x hx => by simp [others x (by simp [hx])])]
  simp [under]

theorem Books.dropSending_eq (tx : b.tx = pre ++ e :: post) (others : ∀ x ∈ pre ++ post, x.underWay = false)
    (under : e.underWay = true) : b.dropSending = { b with tx := pre ++ post } := by
  have keep : ∀ l : List TxEntry, (∀ x ∈ l, x ∈ pre ++ post) → l.filter (fun x => !x.underWay) = l :=
    fun l hl => List.filter_eq_self.2 (fun x hx => by simp [others x (hl x hx)])
  rw [Books.dropSending, tx, List.filter_append, List.filter_cons_of_neg (by simp [under]),
    keep pre (fun x hx => by simp [hx]), keep post (fun x hx => by simp [hx])]

/-- An attempt lost with no removal due leaves the entry waiting, uncounted (R26). -/
theorem Books.attemptLost_waits (tx : b.tx = pre ++ e :: post) (others : ∀ x ∈ pre ++ post, x.underWay = false)
    (under : e.underWay = true) (fill : Option Nat) (removal : e.removal = .none) :
    b.attemptLost fill = { b with tx := pre ++ { e with underWay := false } :: post } := by
  have keep : ∀ l : List TxEntry, (∀ x ∈ l, x ∈ pre ++ post) →
      l.map (fun x => if x.underWay then { x with underWay := false } else x) = l :=
    fun l hl => (List.map_congr_left (g := id) (fun x hx => by simp [others x (hl x hx)])).trans (List.map_id l)
  simp only [Books.attemptLost, Books.sending_eq tx others under, removal, if_true, tx, List.map_append, List.map_cons, under,
    keep pre (fun x hx => by simp [hx]), keep post (fun x hx => by simp [hx])]

/-- An attempt lost with a removal due: the entry leaves, a CLAIM with an attempt is applied, unless it is discarded
(R30). -/
theorem Books.attemptLost_leaves (tx : b.tx = pre ++ e :: post) (others : ∀ x ∈ pre ++ post, x.underWay = false)
    (under : e.underWay = true) (fill : Option Nat) :
    (e.removal = .discard → b.attemptLost fill = { b with tx := pre ++ post })
    ∧ (e.removal = .apply → b.attemptLost fill = ({ b with tx := pre ++ post } : Books).applyRemoved fill e) := by
  refine ⟨fun removal => ?_, fun removal => ?_⟩ <;>
    simp [Books.attemptLost, Books.sending_eq tx others under, removal, Books.leaveRemoved,
      Books.dropSending_eq tx others under]

end UnderWay

/-! ### What the loser keeps (R11) -/

/-- The characters of the frame under way. -/
theorem State.sentChars_eq {s : State} {e : TxEntry} (h : s.books.sending = some e) :
    s.sentChars = frameChars s.books.straps.station e.frame := by
  simp only [State.sentChars, h]

theorem State.outranked_of {s : State} {char : Nat} {bit : BitRead} {c : RxChar} (role : s.line.role = .sender)
    (hchar : 1 ≤ char) (low : 1 ≤ bit.place) (high : bit.place ≤ 11) (dominant : levelOf bit.ticks = false)
    (sent : s.sentChars[char - 1]? = some c) (recessive : (RxChar.bits c)[bit.place - 1]? = some true) :
    s.outranked char bit = true := by
  have inFrame : (char = 0 || bit.place = 0 || 11 < bit.place) = false := by
    simp only [Bool.or_eq_false_iff, decide_eq_false_iff_not]; omega
  simp [State.outranked, State.misreads, State.sentBit, role, inFrame, sent, recessive, dominant]

/-- The characters and the part of one that the loser has read back are those it sent, the lost bit dominant (R11). -/
theorem lostAssembler_read (sender : Nat) (f : Frame) {char place : Nat} {c : RxChar}
    (sent : (frameChars sender f)[char - 1]? = some c) :
    (lostAssembler (frameChars sender f) char place).chars = (frameBytes sender f).take (char - 1)
    ∧ (lostAssembler (frameChars sender f) char place).bits = (RxChar.bits c).take (place - 1) ++ [false] := by
  simp [lostAssembler, sent, List.map_take, frameChars_data]

/-- A sender that is outranked goes on as a receiver; from H3 on that is a clash (R11, R12). -/
theorem exec_arbitrationLost {s : State} {char : Nat} {bit : BitRead} (outranked : s.outranked char bit = true) {t : State}
    (ht : t = { s with
      line := { s.line.pass (s.readBack char bit) with
        role := .receiver (char < 3), assembler := lostAssembler s.sentChars char bit.place },
      books := s.books.attemptLost s.filling }) :
    (char < 3 → exec (.arbitrationLost char bit) s = .next t)
    ∧ (3 ≤ char → exec (.arbitrationLost char bit) s = .next (t.raiseOffline .stationClash)) := by
  subst ht
  have acts : exec (.arbitrationLost char bit) s = .next (s.loseArbitration char bit) :=
    congrArg Host.Outcome.next (if_pos outranked)
  rw [acts]
  exact ⟨fun early => congrArg Host.Outcome.next (if_pos early),
    fun late => congrArg Host.Outcome.next (if_neg (by omega))⟩

/-! ### The entry to OFFLINE (R124, R171) -/

theorem FillStep.not_inFill_iff (k : FillStep) :
    k.inFill = false ↔ k ∈ ([.idle, .accept, .reject, .mark, .clear] : List FillStep) := by
  cases k <;> simp [FillStep.inFill]

theorem Fill.modifyComp_drawn (f : Fill) (k : Nat) {g : CompState → CompState} (h : ∀ c, (g c).opened = c.opened) :
    (f.modifyComp k g).drawn = f.drawn := by
  have any : ∀ (l : List CompState) (i : Nat), (l.modify i g).any (fun c => c.opened) = l.any (fun c => c.opened) := by
    intro l
    induction l with
    | nil => intro i; cases i <;> rfl
    | cons c l ih =>
      intro i
      cases i with
      | zero => simp [h]
      | succ i => simp [ih i]
  exact any _ _

/-- A cut settles actuals; it does not touch which invoice is filled, whether its record stands, or what has drawn. -/
theorem Fill.cut_keeps (f : Fill) (k : FillStep) :
    (f.cut k).invoice = f.invoice ∧ (f.cut k).held = f.held ∧ (f.cut k).drawn = f.drawn := by
  cases k with
  | feed | settle => exact ⟨rfl, rfl, f.modifyComp_drawn _ (fun _ => rfl)⟩
  | topup =>
    simp only [Fill.cut]
    split
    · exact ⟨rfl, rfl, f.modifyComp_drawn _ (fun _ => rfl)⟩
    · exact ⟨rfl, rfl, rfl⟩
  | _ => exact ⟨rfl, rfl, rfl⟩

theorem Books.chestLost_congr (b : Books) {f g : Fill} (h : f.held = g.held) : b.chestLost f = b.chestLost g := by
  simp only [Books.chestLost, h]

/-- The tables after the chest `f`, cut from `was`, is reported and told of at the entry to OFFLINE (R124). -/
def Books.fillOffline (b : Books) (f : Fill) : Books :=
  ((if f.drawn then (b.raiseNotice .chestRejected (some f.invoice) none (some 6)).queueFrame none
      (.chest f.invoice ⟨0, 0, 0, 0, 0, f.draws⟩) else b).chestLost f).dropReservation

/-- The Fill Sequencer rests after OFFLINE, and the rest of the lane, but for the tables, is as a cut leaves it. -/
theorem offlineFill_eq (s : State) : s.offlineFill = { s with
    books := match s.filler.fill with
      | none => s.books
      | some f => if s.filler.step.inFill then s.books.fillOffline (f.cut s.filler.step) else s.books.dropReservation,
    weigh := if s.filler.fill.isSome && s.filler.step.inFill then s.withdrawLane.weigh else s.weigh,
    filler := { s.filler with step := .idle, fill := none, gate := .closed, flow := none, rejectTimer := 0 } } := by
  cases fill : s.filler.fill with
  | none => simp [State.offlineFill, fill, State.goIdle, State.setFiller]
  | some f =>
    cases step : s.filler.step.inFill with
    | false => simp [State.offlineFill, fill, step, State.goIdle, State.setFiller, State.onBooks, State.setBooks]
    | true =>
      have cut : (s.cutFill.toStep .idle).filler.fill = some (f.cut s.filler.step) := by
        rw [State.cutFill_eq fill]; rfl
      simp only [State.offlineFill, fill, step, if_true, cut]
      rw [State.cutFill_eq fill]
      cases drawn : (f.cut s.filler.step).drawn <;>
        simp [Books.fillOffline, drawn, State.queueReport, State.goIdle, State.setFiller, State.onBooks, State.setBooks,
          State.toStep, RejectReason.num]

/-- A lane's request withdrawn leaves a waiting ZERO SCALE, and any scale, sample and reading. -/
theorem withdrawLane_weigh (s : State) :
    { s.withdrawLane.weigh with request := none, timer := 0 } = { s.weigh with request := none, timer := 0 }
    ∧ s.withdrawLane.weigh.request.any (fun q => q.who = .zeroScale) = s.weigh.request.any (fun q => q.who = .zeroScale) := by
  unfold State.withdrawLane
  split
  · next lane =>
    refine ⟨rfl, ?_⟩
    cases request : s.weigh.request with
    | none => simp [request] at lane
    | some q => cases who : q.who <;> simp [request, who, Requester.ofLane] at lane ⊢
  · exact ⟨rfl, rfl⟩

/-- Every settle ends at the entry to OFFLINE, and a waiting ZERO SCALE is answered (R99). -/
theorem offlineWeigh_eq (s : State) : s.offlineWeigh = { s with
    weigh := { s.weigh with request := none, timer := 0 },
    port := if s.weigh.request.any (fun q => q.who = .zeroScale) then (s.reply .notSteady []).port else s.port } := by
  unfold State.offlineWeigh
  split
  · unfold State.reply
    simp only [State.withdrawRequest_port]
    split <;> simp [State.withdrawRequest, State.setWeigh, State.setPort]
  · rfl

theorem Marker.stop_path (m : Marker) : m.stop.path = m.path ∧ m.stop.unknown = m.unknown := by
  unfold Marker.stop Marker.clearLatch
  split <;> exact ⟨rfl, rfl⟩

/-- With no SHIFT in progress the path stands (log 42). -/
theorem Marker.cutShift_stop_path {m : Marker} (h : m.chain ≠ .shift) :
    m.cutShift.stop.path = m.path ∧ m.cutShift.stop.unknown = m.unknown := by
  rw [Marker.cutShift, if_neg h]
  exact m.stop_path

/-- The head at the entry to OFFLINE, but for its path: no job, and the latch cleared (R126, R135). -/
theorem Marker.cutShift_stop_eq (m : Marker) : m.cutShift.stop = { m with
    chain := .headIdle, job := none, firing := none, path := m.cutShift.stop.path, unknown := m.cutShift.stop.unknown,
    latch := match m.head with
      | none => m.latch
      | some h => if h.activeLow then BitVec.allOnes 32 else 0 } := by
  have keeps : m.cutShift = { m with path := m.cutShift.path, unknown := m.cutShift.unknown } := by
    unfold Marker.cutShift; split <;> rfl
  rw [m.cutShift.stop_path.1, m.cutShift.stop_path.2, keeps]
  unfold Marker.stop Marker.clearLatch
  cases head : m.head with
  | none => rfl
  | some h => simp only [Head.noFire, Head.levels]; rfl

/-- The blocks' actions at the entry to OFFLINE, part by part (R124, R171). -/
theorem offline_acts (s : State) : (s.offlineFill.setMarker s.marker.cutShift.stop).offlineWeigh = { s with
    books := s.offlineFill.books,
    marker := s.marker.cutShift.stop,
    weigh := { s.weigh with request := none, timer := 0 },
    port := if s.weigh.request.any (fun q => q.who = .zeroScale) then (s.reply .notSteady []).port else s.port,
    filler := { s.filler with step := .idle, fill := none, gate := .closed, flow := none, rejectTimer := 0 } } := by
  obtain ⟨weigh, waits⟩ := withdrawLane_weigh s
  have port : ∀ t : State, t.port = s.port → (t.reply .notSteady []).port = (s.reply .notSteady []).port := by
    intro t h
    unfold State.reply
    rw [h]
    cases s.port.command with
    | none => exact h
    | some code => rfl
  have lane : { s.offlineFill.weigh with request := none, timer := 0 } = { s.weigh with request := none, timer := 0 }
      ∧ s.offlineFill.weigh.request.any (fun q => q.who = .zeroScale)
        = s.weigh.request.any (fun q => q.who = .zeroScale) := by
    rw [offlineFill_eq]
    dsimp only
    split
    · exact ⟨weigh, waits⟩
    · exact ⟨rfl, rfl⟩
  have kept : s.offlineFill = { s with
      books := s.offlineFill.books, weigh := s.offlineFill.weigh,
      filler := { s.filler with step := .idle, fill := none, gate := .closed, flow := none, rejectTimer := 0 } } := by
    rw [offlineFill_eq]
  rw [offlineWeigh_eq, State.setMarker_weigh, lane.1, lane.2, State.setMarker_port,
    port _ (by rw [kept]; rfl), kept]
  rfl

/-- A severe fault of codes 1 and 2 puts the station OFFLINE from any other state (R171). -/
theorem raiseOffline_enters {s : State} (c : FaultCode) (station : s.books.station ≠ .offline) {b : Books}
    (hb : b = { s.books.raiseFault c with station := .offline }) {t : State} (ht : t = { s with books := b }) :
    s.raiseOffline c = (t.offlineFill.setMarker t.marker.cutShift.stop).offlineWeigh := by
  subst ht hb
  have online : ¬ (s.onBooks (·.raiseFault c)).books.station = .offline := station
  have marker : ∀ t : State, t.offlineFill.marker = t.marker := fun t => by rw [offlineFill_eq]
  rw [State.raiseOffline, if_neg online]
  dsimp only
  rw [marker]
  rfl

/-- The tables at the entry to OFFLINE, by what is filled and drawn (R65, R124). -/
theorem offlineFill_books (s : State) :
    (s.filler.fill = none → s.offlineFill.books = s.books)
    ∧ (∀ f f' : Fill, s.filler.fill = some f → f' = f.cut s.filler.step →
        (s.filler.step ∈ ([.idle, .accept, .reject, .mark, .clear] : List FillStep) →
          s.offlineFill.books = s.books.dropReservation)
        ∧ (s.filler.step ∉ ([.idle, .accept, .reject, .mark, .clear] : List FillStep) →
          ((∀ x ∈ f.comps, x.opened = false) → s.offlineFill.books = (s.books.chestLost f).dropReservation)
          ∧ ((∃ x ∈ f.comps, x.opened = true) →
            s.offlineFill.books = (((s.books.raiseNotice .chestRejected (some f.invoice) none (some 6)).queueFrame none
              (.chest f.invoice ⟨0, 0, 0, 0, 0, f'.draws⟩)).chestLost f).dropReservation))) := by
  rw [offlineFill_eq]
  refine ⟨fun fill => by simp only [fill], fun f f' fill hf => ?_⟩
  obtain ⟨invoice, held, drawn⟩ := f.cut_keeps s.filler.step
  simp only [fill, ← FillStep.not_inFill_iff]
  refine ⟨fun resting => by simp [resting], fun filling => ?_⟩
  rw [if_pos (by simpa using filling), Books.fillOffline, drawn, invoice, Books.chestLost_congr _ held, hf]
  refine ⟨fun undrawn => ?_, fun some => ?_⟩
  · rw [if_neg (by simpa [Fill.drawn] using undrawn)]
  · rw [if_pos (by simpa [Fill.drawn] using some)]

/-! ### O33 -/

/-- The first part of O33: who loses an arbitration goes on as a receiver, or clashes (R11, R12, R26). -/
theorem arbitrationLost_acts {s : State} {char : Nat} {bit : BitRead} {pre post : List TxEntry} {e : TxEntry} {c : RxChar}
    {heard : List Bool} {b : Books} (role : s.line.role = .sender) (tx : s.books.tx = pre ++ e :: post)
    (others : ∀ x ∈ pre ++ post, x.underWay = false) (under : e.underWay = true) (hchar : 1 ≤ char)
    (low : 1 ≤ bit.place) (high : bit.place ≤ 11) (dominant : levelOf bit.ticks = false)
    (sent : (frameChars s.books.straps.station e.frame)[char - 1]? = some c)
    (recessive : (RxChar.bits c)[bit.place - 1]? = some true)
    (hheard : heard = (((frameChars s.books.straps.station e.frame).flatMap RxChar.bits).take
        (11 * (char - 1) + (bit.place - 1))).flatMap (List.replicate 16)
      ++ (List.range 11).map (fun i => bit.ticks.getLsbD i))
    (hb : b = s.books.attemptLost s.filling) :
    ∃ t : State, t.line.assembler.chars = (frameBytes s.books.straps.station e.frame).take (char - 1)
      ∧ t.line.assembler.bits = (RxChar.bits c).take (bit.place - 1) ++ [false]
      ∧ t = { s with
          line := { s.line.pass heard with role := .receiver (char < 3), assembler := t.line.assembler }, books := b }
      ∧ (char < 3 → exec (.arbitrationLost char bit) s = .next t)
      ∧ (3 ≤ char → exec (.arbitrationLost char bit) s = .next (t.raiseOffline .stationClash)) := by
  have chars := State.sentChars_eq (Books.sending_eq tx others under)
  have read : s.readBack char bit = heard := by rw [hheard, State.readBack, chars]; rfl
  have outranked := State.outranked_of role hchar low high dominant (by rwa [chars]) recessive
  obtain ⟨acts, clash⟩ := exec_arbitrationLost outranked rfl
  rw [read, chars, ← hb] at acts clash
  obtain ⟨whole, part⟩ := lostAssembler_read s.books.straps.station e.frame (char := char) (place := bit.place) sent
  exact ⟨_, whole, part, rfl, acts, clash⟩

/-- Settles O33: the lost arbitration, whose entry's fate the attempt lost decides, and the entry to OFFLINE. -/
theorem arbitrationLostMakesAReceiver : Obligations.ArbitrationLostMakesAReceiver := by
  refine ⟨?_, fun s c => ⟨fun offline => ?_, fun station b hb => ?_⟩⟩
  · intro s char bit pre post e c heard b role tx others under hchar low high dominant sent recessive hheard hb
    refine arbitrationLost_acts role tx others under hchar low high dominant sent recessive hheard ?_
    obtain ⟨discarded, applied⟩ := Books.attemptLost_leaves tx others under s.filling
    rw [hb]
    cases removal : e.removal with
    | none => simp only [Books.attemptLost_waits tx others under s.filling removal, removal]
    | discard => exact (discarded removal).symm
    | apply =>
      rw [applied removal]
      cases frame : e.frame <;> simp only [Books.applyRemoved, frame]
  · rw [State.raiseOffline, if_pos (show (s.onBooks (·.raiseFault c)).books.station = .offline from offline)]
    rfl
  · have enters := (raiseOffline_enters c station hb rfl).trans (offline_acts _)
    obtain ⟨empty, filled⟩ := offlineFill_books { s with books := b }
    refine ⟨_, enters, empty, filled, s.marker.cutShift_stop_eq, Marker.cutShift_stop_path, fun q code request who command => ?_,
      fun others => ?_, rfl⟩
    · simp [request, who, State.reply, command, State.setPort]
    · cases request : s.weigh.request with
      | none => simp
      | some q => simp [others q request]

end Sys2Proof.Machine
end

section
/-! PROOFS. A queued frame joins the Transmit Queue or is dropped (R23, R24; O50). -/

namespace Sys2Proof.Machine

namespace Books

/-- There is room for a frame (R23): fewer than 8 entries, and for a kind other than TALLY fewer than 7 of such kinds. -/
theorem hasRoom_iff (b : Books) (f : Frame) : b.hasRoom f = true ↔ b.tx.length < 8
    ∧ (f.kind = 3 ∨ (b.tx.filter (fun e => e.frame.kind ≠ 3)).length < 7) := by
  simp only [hasRoom, Bool.and_eq_true, Bool.or_eq_true, decide_eq_true_eq]
  simp [Frame.isTally]

theorem queueFrame_of_room {b : Books} {f : Frame} (room : b.hasRoom f = true) (fill : Option Nat) :
    b.queueFrame fill f = { b with tx := b.tx ++ [TxEntry.fresh f] } := if_pos room

theorem queueFrame_of_full {b : Books} {f : Frame} (full : b.hasRoom f = false) (fill : Option Nat) :
    b.queueFrame fill f = b.dropFrame fill f := if_neg (by simp [full])

/-- A dropped CLAIM is not applied (R24). -/
theorem dropFrame_claim (b : Books) (fill : Option Nat) {f : Frame} (claim : f.kind = 4) :
    b.dropFrame fill f = b.raiseFault .txQueueFull := by
  cases f with
  | claim => rfl
  | _ => cases claim

/-- Any other dropped frame is applied as one that leaves unheard (R24). -/
theorem dropFrame_other (b : Books) (fill : Option Nat) {f : Frame} (other : f.kind ≠ 4) :
    b.dropFrame fill f = (b.raiseFault .txQueueFull).applyOwn fill f := by
  cases f with
  | claim => exact absurd rfl other
  | _ => rfl

end Books

/-- Settles O50: the two outcomes of `queueFrame`, by the room that is left. -/
theorem queueFrameJoinsOrDrops : Obligations.QueueFrameJoinsOrDrops := by
  intro b fill f others hothers
  have room_iff := b.hasRoom_iff f
  rw [← hothers] at room_iff
  refine ⟨fun room => Books.queueFrame_of_room (room_iff.2 room) fill, fun full => ?_⟩
  have no_room : b.hasRoom f = false := by
    rw [Bool.eq_false_iff, Ne, room_iff]
    omega
  rw [Books.queueFrame_of_full no_room]
  exact ⟨b.dropFrame_claim fill, b.dropFrame_other fill⟩

end Sys2Proof.Machine
end

section
/-! PROOFS. What the operations of the tables keep of the chest store, the reservation numbers and the serials (R53, R54,
R138, R139; O60). -/

namespace Sys2Proof.Machine

/-! ### The laws, record by record -/

/-- A CLAIM names serials from 1 to 99 (R6); a frame of another kind is free of it. -/
def Frame.claimLaw (f : Frame) : Prop :=
  ∀ n planned first count, f = .claim n planned first count → 1 ≤ first ∧ first + count ≤ 100

/-- The serials of one record within their bounds, none of its free ones on a chest of the store (R54). -/
def Invoice.serialLaw (r : Invoice) (chests : List Chest) : Prop :=
  r.planned ≤ 99 ∧ r.ceiling ≤ r.planned ∧ r.high ≤ 99
  ∧ ∀ x ∈ r.free, 1 ≤ x ∧ x ≤ r.high ∧ x ≤ r.ceiling ∧ ∀ c ∈ chests, c.invoice = r.number → c.key ≠ .packed x

/-- A chest record belongs to an invoice of the table, whose high mark covers its serial. -/
def Chest.covered (c : Chest) (l : List Invoice) : Prop :=
  ∃ r ∈ l, r.number = c.invoice ∧ ∀ x, c.key = .packed x → 1 ≤ x ∧ x ≤ r.high

/-- The part of the store's law that the tables alone show: the order, and 256 slots with the reserved one (R138). -/
def Books.shelfLaw (b : Books) : Prop :=
  b.chests.Pairwise (fun c d => c.order < d.order)
  ∧ b.chests.length + (if b.reservation.isSome then 1 else 0) ≤ 256

/-- The part of the reservation numbers' law that the tables alone show (R139). -/
def Books.orphanLaw (b : Books) : Prop :=
  b.reservationCounter ≤ 255 ∧ ∀ c ∈ b.chests, ∀ k, c.key = .orphan k → k ≤ 255

theorem Frame.claimLaw_of_kind {f : Frame} (other : f.kind ≠ 4) : f.claimLaw := by
  rintro n planned first count rfl
  exact absurd rfl other

theorem Frame.claimLaw_claim {n planned first count : Nat} :
    (Frame.claim n planned first count).claimLaw ↔ 1 ≤ first ∧ first + count ≤ 100 :=
  ⟨fun law => law n planned first count rfl, fun law _ _ _ _ h => by cases h; exact law⟩

theorem Frame.claimLaw_of_inRange {sender : Nat} {f : Frame} (range : f.inRange sender = true) : f.claimLaw := by
  rintro n planned first count rfl
  have body := Frame.bodyInRange_of_inRange range
  simp only [Frame.bodyInRange, Bool.and_eq_true, inside_iff, decide_eq_true_eq] at body
  omega

/-- A record that differs from another in nothing that the serials' law looks at, but for a thinner free list. -/
structure Invoice.Thins (r q : Invoice) : Prop where
  number : q.number = r.number
  planned : q.planned = r.planned
  ceiling : q.ceiling = r.ceiling
  high : q.high = r.high
  free : q.free.Sublist r.free

theorem Invoice.Thins.refl (r : Invoice) : r.Thins r := ⟨rfl, rfl, rfl, rfl, .refl _⟩

theorem Invoice.Thins.trans {r q p : Invoice} (h : r.Thins q) (k : q.Thins p) : r.Thins p :=
  ⟨k.number.trans h.number, k.planned.trans h.planned, k.ceiling.trans h.ceiling, k.high.trans h.high, k.free.trans h.free⟩

theorem Invoice.Thins.freeLaw {r q : Invoice} (h : r.Thins q) (law : r.freeLaw) : q.freeLaw :=
  ⟨h.free.length_le.trans law.1, law.2.sublist h.free⟩

theorem Invoice.Thins.serialLaw {r q : Invoice} (h : r.Thins q) {chests : List Chest} (law : r.serialLaw chests) :
    q.serialLaw chests := by
  obtain ⟨number, planned, ceiling, high, free⟩ := h
  obtain ⟨hplanned, hceiling, hhigh, hfree⟩ := law
  unfold Invoice.serialLaw
  rw [number, planned, ceiling, high]
  exact ⟨hplanned, hceiling, hhigh, fun x hx => hfree x (free.subset hx)⟩

theorem Invoice.surrender_thins (r : Invoice) (filling : Bool) : r.Thins (r.surrender filling) := by
  unfold Invoice.surrender
  split
  · exact .refl r
  · next x l free =>
    split
    · exact ⟨rfl, rfl, rfl, rfl, by rw [free]; exact List.Sublist.cons_cons x (List.nil_sublist l)⟩
    · exact ⟨rfl, rfl, rfl, rfl, List.nil_sublist _⟩

theorem Invoice.surrenderAll_thins (r : Invoice) : r.Thins r.surrenderAll := ⟨rfl, rfl, rfl, rfl, List.nil_sublist _⟩

theorem Invoice.giveUp_thins (r : Invoice) (first count : Nat) : r.Thins (r.giveUp first count) :=
  ⟨rfl, rfl, rfl, rfl, List.filter_sublist⟩

theorem Invoice.yield_thins (r : Invoice) (x : Nat) : r.Thins (r.yield x) := by
  unfold Invoice.yield
  split
  · exact ⟨rfl, rfl, rfl, rfl, .refl _⟩
  · exact .refl r

theorem Invoice.yieldRange_thins (r : Invoice) (first count : Nat) : r.Thins (r.yieldRange first count) := by
  unfold Invoice.yieldRange
  generalize List.range' first count = l
  induction l generalizing r with
  | nil => exact .refl r
  | cons x l ih => exact (r.yield_thins x).trans (ih _)

namespace Books

theorem serialLaw_iff (b : Books) : b.serialLaw ↔ (∀ r ∈ b.invoices, r.serialLaw b.chests)
    ∧ (∀ c ∈ b.chests, c.covered b.invoices) ∧ ∀ e ∈ b.tx, e.frame.claimLaw := Iff.rfl

theorem invoice?_some {b : Books} {n : Nat} {r : Invoice} (found : b.invoice? n = some r) :
    r ∈ b.invoices ∧ r.number = n :=
  ⟨List.mem_of_find?_eq_some found, by simpa using List.find?_some found⟩

/-- The table has one record for a number (R34). -/
theorem invoice?_of_mem {b : Books} (law : b.invoiceLaw) {r : Invoice} (hr : r ∈ b.invoices) :
    b.invoice? r.number = some r := by
  obtain ⟨-, ascending, -⟩ := law
  have distinct : (b.invoices.map (·.number)).Nodup := by
    rw [List.Nodup, List.pairwise_map]
    exact ascending.imp Nat.ne_of_lt
  have present : (b.invoice? r.number).isSome = true := List.find?_isSome.2 ⟨r, hr, by simp⟩
  obtain ⟨q, found⟩ := Option.isSome_iff_exists.1 present
  obtain ⟨hq, number⟩ := invoice?_some found
  rw [found, List.inj_on_of_nodup_map distinct hq hr number]

theorem chest?_some {b : Books} {n k : Nat} {c : Chest} (found : b.chest? n k = some c) :
    c ∈ b.chests ∧ c.invoice = n ∧ c.key = .packed k :=
  ⟨List.mem_of_find?_eq_some found, by simpa using List.find?_some found⟩

theorem chest?_none {b : Books} {n k : Nat} (absent : b.chest? n k = none) {c : Chest} (hc : c ∈ b.chests)
    (invoice : c.invoice = n) : c.key ≠ .packed k := by
  have := List.find?_eq_none.1 absent c hc
  simpa [invoice] using this

/-! ### What an operation of the tables keeps of them -/

/-- What the laws of the store, of the reservation numbers and of the serials look at. -/
def ledger (b : Books) : List Invoice × List TxEntry × List Chest × Option Nat × Nat :=
  (b.invoices, b.tx, b.chests, b.reservation, b.reservationCounter)

/-- An operation of the tables that leaves the reserved slot and keeps every law of O60. -/
structure Sound (a b : Books) : Prop where
  kept : a.Kept b
  slot : b.reservation = a.reservation
  shelf : a.shelfLaw → b.shelfLaw
  orphans : a.orphanLaw → b.orphanLaw
  serials : a.invoiceLaw → a.serialLaw → b.serialLaw

variable {a b : Books}

theorem Sound.refl (b : Books) : b.Sound b := ⟨Kept.refl b, rfl, id, id, fun _ => id⟩

theorem Sound.trans {c : Books} (h : a.Sound b) (k : b.Sound c) : a.Sound c :=
  ⟨h.kept.trans k.kept, k.slot.trans h.slot, fun l => k.shelf (h.shelf l), fun l => k.orphans (h.orphans l),
    fun i l => k.serials (h.kept.free i) (h.serials i l)⟩

theorem Sound.ite {c : Prop} [Decidable c] {b' : Books} (h : a.Sound b) (k : a.Sound b') :
    a.Sound (if c then b else b') := by split <;> assumption

/-- An operation that leaves all that these laws look at. -/
theorem Sound.of_ledger (kept : a.Kept b) (same : b.ledger = a.ledger) : a.Sound b := by
  simp only [ledger, Prod.mk.injEq] at same
  obtain ⟨invoices, tx, chests, reservation, counter⟩ := same
  refine ⟨kept, reservation, ?_, ?_, fun _ => ?_⟩
  · unfold shelfLaw; rw [chests, reservation]; exact id
  · unfold orphanLaw; rw [chests, counter]; exact id
  · unfold serialLaw; rw [chests, invoices, tx]; exact id

/-- A change of the queue within its capacity, whose CLAIMs stay in range. -/
theorem Sound.setTx (h : a.Sound b) {tx : List TxEntry} (kept : b.Kept { b with tx := tx })
    (claims : b.serialLaw → ∀ e ∈ tx, e.frame.claimLaw) : a.Sound { b with tx := tx } := by
  refine h.trans ⟨kept, rfl, id, id, fun _ law => ?_⟩
  obtain ⟨records, chests, -⟩ := id law
  exact ⟨records, chests, claims law⟩

/-- A change of one record that keeps its number and lets its high mark grow. -/
theorem Sound.modifyInvoice (h : a.Sound b) {n : Nat} {f : Invoice → Invoice} (number : ∀ r, (f r).number = r.number)
    (high : ∀ r, b.invoice? n = some r → r.high ≤ (f r).high)
    (free : ∀ r, b.invoice? n = some r → r.freeLaw → (f r).freeLaw)
    (law : a.invoiceLaw → a.serialLaw → ∀ r, b.invoice? n = some r → r.serialLaw b.chests → (f r).serialLaw b.chests) :
    a.Sound (b.modifyInvoice n f) := by
  have numbers : ∀ r : Invoice, (if r.number = n then f r else r).number = r.number := by
    intro r; split
    · exact number r
    · rfl
  have kept : b.Kept (b.modifyInvoice n f) := by
    refine ⟨rfl, rfl, rfl, rfl, rfl, rfl, rfl, rfl, rfl, id, fun invoices => ?_⟩
    obtain ⟨few, ascending, frees⟩ := id invoices
    refine ⟨by simpa [Books.modifyInvoice] using few, ?_, ?_⟩
    · simpa only [Books.modifyInvoice, List.pairwise_map, numbers] using ascending
    · intro q hq
      obtain ⟨r, hr, rfl⟩ := List.mem_map.1 hq
      split
      · next hn => exact free r (hn ▸ invoice?_of_mem invoices hr) (frees r hr)
      · exact frees r hr
  refine ⟨h.kept.trans kept, h.slot, h.shelf, h.orphans, fun before serials => ?_⟩
  obtain ⟨records, chests, claims⟩ := h.serials before serials
  have invoices := h.kept.free before
  refine ⟨fun q hq => ?_, fun c hc => ?_, claims⟩
  · obtain ⟨r, hr, rfl⟩ := List.mem_map.1 hq
    split
    · next hn => exact law before serials r (hn ▸ invoice?_of_mem invoices hr) (records r hr)
    · exact records r hr
  · obtain ⟨r, hr, invoice, covers⟩ := chests c hc
    refine ⟨_, List.mem_map.2 ⟨r, hr, rfl⟩, (numbers r).trans invoice, fun x hx => ?_⟩
    obtain ⟨low, up⟩ := covers x hx
    refine ⟨low, up.trans ?_⟩
    split
    · next hn => exact high r (hn ▸ invoice?_of_mem invoices hr)
    · exact le_rfl

theorem Sound.thin (h : a.Sound b) {n : Nat} {f : Invoice → Invoice} (thins : ∀ r : Invoice, r.Thins (f r)) :
    a.Sound (b.modifyInvoice n f) :=
  h.modifyInvoice (fun r => (thins r).number) (fun r _ => (thins r).high.ge) (fun r _ => (thins r).freeLaw)
    (fun _ _ r _ => (thins r).serialLaw)

/-! ### Operations beside the invoices, the queue and the store -/

theorem raiseNotice_ledger (b : Books) (k : NoticeKind) (i s v : Option Nat) :
    (b.raiseNotice k i s v).ledger = b.ledger := by
  unfold raiseNotice; split <;> rfl

theorem setBin_ledger (b : Books) (n : Nat) (r : Bin) : (b.setBin n r).ledger = b.ledger := by
  unfold setBin; split <;> rfl

theorem fillBin_ledger (b : Books) (n x q : Nat) : (b.fillBin n x q).ledger = b.ledger := by
  unfold fillBin
  dsimp only
  split
  · rw [raiseNotice_ledger, setBin_ledger]
  · rw [setBin_ledger]

theorem binAction_ledger (b : Books) (n k x q : Nat) : (b.binAction n k x q).ledger = b.ledger := by
  unfold binAction
  split
  · exact b.fillBin_ledger _ _ _
  · exact b.setBin_ledger _ _
  · exact b.setBin_ledger _ _
  · rfl

theorem lowerBin_ledger (b : Books) (n d : Nat) : (b.lowerBin n d).ledger = b.ledger := by
  unfold lowerBin
  dsimp only
  split
  · exact b.setBin_ledger _ _
  · exact b.setBin_ledger _ _

theorem enterLow_ledger (b : Books) (n : Nat) : (b.enterLow n).ledger = b.ledger := by
  unfold enterLow
  split
  · rw [raiseNotice_ledger, setBin_ledger]
  · rfl

theorem draw_ledger (b : Books) (d : Draw) : (b.draw d).ledger = b.ledger := by
  unfold draw
  split
  · rfl
  · split
    · rfl
    · rfl
    · rw [enterLow_ledger, lowerBin_ledger]
    · exact b.lowerBin_ledger _ _
    · exact b.lowerBin_ledger _ _

theorem drawAll_ledger (b : Books) (ds : List Draw) : (b.drawAll ds).ledger = b.ledger := by
  unfold drawAll
  induction ds generalizing b with
  | nil => rfl
  | cons d ds ih => exact (ih _).trans (b.draw_ledger d)

theorem Sound.raiseFault (h : a.Sound b) {c : FaultCode} (mild : c.severe = false) : a.Sound (b.raiseFault c) :=
  h.trans (.of_ledger (b.kept_raiseFault mild) rfl)

theorem Sound.clearCause (h : a.Sound b) (c : FaultCode) : a.Sound (b.clearCause c) :=
  h.trans (.of_ledger (b.kept_clearCause c) rfl)

theorem Sound.raiseNotice (h : a.Sound b) (k : NoticeKind) (i s v : Option Nat) : a.Sound (b.raiseNotice k i s v) :=
  h.trans (.of_ledger (b.kept_raiseNotice k i s v) (b.raiseNotice_ledger k i s v))

theorem Sound.emptyBin (h : a.Sound b) (n x : Nat) : a.Sound (b.emptyBin n x) :=
  h.trans (.of_ledger (b.kept_emptyBin n x) (b.setBin_ledger _ _))

theorem Sound.binAction (h : a.Sound b) (n k x q : Nat) : a.Sound (b.binAction n k x q) :=
  h.trans (.of_ledger (b.kept_binAction n k x q) (b.binAction_ledger n k x q))

theorem Sound.drawAll (h : a.Sound b) (ds : List Draw) : a.Sound (b.drawAll ds) :=
  h.trans (.of_ledger (b.kept_drawAll ds) (b.drawAll_ledger ds))

theorem Sound.rounds (h : a.Sound b) (l : List Round) : a.Sound { b with rounds := l } :=
  h.trans (.of_ledger (b.kept_rounds l) rfl)

theorem Sound.sheets (h : a.Sound b) (l : List LotSheet) : a.Sound { b with sheets := l } :=
  h.trans (.of_ledger (b.kept_sheets l) rfl)

theorem Sound.setRepeat (h : a.Sound b) (k : Nat) (r : Option Repeat) : a.Sound (b.setRepeat k r) :=
  h.trans (.of_ledger (b.kept_setRepeat k r) (by unfold Books.setRepeat; split <;> rfl))

theorem Sound.remember (h : a.Sound b) (k : Nat) (f : Frame) : a.Sound (b.remember k f) := by
  unfold Books.remember; split <;> exact h.setRepeat _ _

theorem Sound.freeSheet (h : a.Sound b) (n : Nat) : a.Sound (b.freeSheet n) :=
  h.trans (.of_ledger (b.kept_freeSheet n) (by unfold Books.freeSheet; split <;> rfl))

theorem Sound.noteSlots (h : a.Sound b) : a.Sound b.noteSlots := Sound.ite (h.clearCause _) h

theorem Sound.takeNotice (h : a.Sound b) : a.Sound b.takeNotice :=
  h.trans (.of_ledger b.kept_takeNotice (by unfold Books.takeNotice; dsimp only; split <;> rfl))

theorem Sound.sampleSeen (h : a.Sound b) (saturated : Bool) : a.Sound (b.sampleSeen saturated) :=
  Sound.ite (h.clearCause _) ((h.clearCause _).clearCause _)

end Books
end Sys2Proof.Machine
end

section
/-! PROOFS. The Transmit Queue, the Invoice Table and the Close Unit keep the laws of the store and the serials (O60). -/

namespace Sys2Proof.Machine

namespace Books

variable {a b : Books}

/-! ### Claims applied (R30, R54, R57) -/

/-- One serial of an own claim: only the free list and the surrender count change, and only a claimable serial joins. -/
theorem takeClaimed_eq (b : Books) (fill : Option Nat) (r : Invoice) (x : Nat) :
    ∃ free surrendered, b.takeClaimed fill r x = { r with free := free, surrendered := surrendered }
      ∧ ∀ y ∈ free, y ∈ r.free ∨ (y = x ∧ b.claimable r x = true) := by
  unfold takeClaimed
  split
  · next claimable =>
    split
    iterate 3
      split
      · exact ⟨_, r.surrendered, rfl, fun y hy => (mem_insertAsc.1 hy).elim (fun e => .inr ⟨e, claimable⟩) .inl⟩
      · exact ⟨r.free, r.surrendered, rfl, fun _ => .inl⟩
    · split
      · exact ⟨[x], r.surrendered, rfl, fun y hy => .inr ⟨List.mem_singleton.1 hy, claimable⟩⟩
      · exact ⟨r.free, _, rfl, fun _ => .inl⟩
    · exact ⟨r.free, _, rfl, fun _ => .inl⟩
  · exact ⟨r.free, r.surrendered, rfl, fun _ => .inl⟩

theorem takeClaimed_foldl_eq (b : Books) (fill : Option Nat) (l : List Nat) (r : Invoice) :
    ∃ free surrendered, l.foldl (b.takeClaimed fill) r = { r with free := free, surrendered := surrendered }
      ∧ ∀ y ∈ free, y ∈ r.free ∨ (y ∈ l ∧ b.claimable r y = true) := by
  induction l generalizing r with
  | nil => exact ⟨r.free, r.surrendered, rfl, fun _ => .inl⟩
  | cons x l ih =>
    obtain ⟨free, surrendered, first, joins⟩ := b.takeClaimed_eq fill r x
    obtain ⟨free', surrendered', rest, joins'⟩ := ih { r with free := free, surrendered := surrendered }
    refine ⟨free', surrendered', by rw [List.foldl_cons, first, rest], fun y hy => ?_⟩
    rcases joins' y hy with old | ⟨later, claimable⟩
    · rcases joins y old with old | ⟨rfl, claimable⟩
      · exact .inl old
      · exact .inr ⟨List.mem_cons_self, claimable⟩
    · exact .inr ⟨List.mem_cons_of_mem _ later, claimable⟩

theorem claimable_iff {r : Invoice} {x : Nat} : b.claimable r x = true
    ↔ x ≤ r.ceiling ∧ x ∉ r.yielded ∧ b.chest? r.number x = none := by
  simp [claimable, and_assoc]

/-- An own claim in range keeps its record's serials in their bounds (R57). -/
theorem claimed_serialLaw (fill : Option Nat) {r : Invoice} {first count : Nat} (low : 1 ≤ first)
    (up : first + count ≤ 100) (law : r.serialLaw b.chests) :
    ((List.range' first count).foldl (b.takeClaimed fill) { r with high := max r.high (first + count - 1) }).serialLaw
      b.chests := by
  obtain ⟨planned, ceiling, high, free⟩ := law
  obtain ⟨l, k, claimed, joins⟩ :=
    b.takeClaimed_foldl_eq fill (List.range' first count) { r with high := max r.high (first + count - 1) }
  rw [claimed]
  refine ⟨planned, ceiling, by dsimp only; omega, fun y hy => ?_⟩
  dsimp only
  rcases joins y hy with old | ⟨named, claimable⟩
  · obtain ⟨h₁, h₂, h₃, h₄⟩ := free y old
    exact ⟨h₁, by omega, h₃, h₄⟩
  · rw [List.mem_range'_1] at named
    obtain ⟨below, -, absent⟩ := claimable_iff.1 claimable
    exact ⟨by omega, by omega, below, fun c hc invoice => chest?_none absent hc invoice⟩

theorem Sound.applyOwnClaim (h : a.Sound b) (fill : Option Nat) {n first count : Nat}
    (claim : a.serialLaw → 1 ≤ first ∧ first + count ≤ 100) : a.Sound (b.applyOwnClaim fill n first count) := by
  refine ⟨h.kept.trans (b.kept_applyOwnClaim fill n first count), h.slot, h.shelf, h.orphans, fun invoices serials => ?_⟩
  obtain ⟨low, up⟩ := claim serials
  have claimed := fun r : Invoice =>
    b.takeClaimed_foldl fill (List.range' first count) { r with high := max r.high (first + count - 1) }
  unfold Books.applyOwnClaim
  refine (Sound.modifyInvoice (.refl b) ?_ ?_ ?_ ?_).serials (h.kept.free invoices) (h.serials invoices serials)
  · exact fun r => (claimed r).1
  · intro r _
    obtain ⟨l, k, e, -⟩ :=
      b.takeClaimed_foldl_eq fill (List.range' first count) { r with high := max r.high (first + count - 1) }
    simp only [e]
    exact Nat.le_max_left _ _
  · exact fun r _ => (claimed r).2
  · exact fun _ _ r _ => claimed_serialLaw fill low up

theorem Sound.claimSent (h : a.Sound b) {n first count : Nat} (claim : a.serialLaw → first + count ≤ 100) :
    a.Sound (b.claimSent n first count) := by
  refine h.modifyInvoice (fun _ => by rfl) (fun _ _ => Nat.le_max_left _ _) (fun _ _ => id) (fun _ serials r _ law => ?_)
  obtain ⟨planned, ceiling, high, free⟩ := law
  have := claim serials
  refine ⟨planned, ceiling, by dsimp only; omega, fun x hx => ?_⟩
  obtain ⟨h₁, h₂, h₃, h₄⟩ := free x hx
  exact ⟨h₁, h₂.trans (Nat.le_max_left _ _), h₃, h₄⟩

theorem Sound.surrenderKept (h : a.Sound b) (n : Nat) : a.Sound (b.surrenderKept n) :=
  h.thin (fun r => by split; exacts [r.surrenderAll_thins, .refl r])

theorem Sound.applyRemoved (h : a.Sound b) (fill : Option Nat) {e : TxEntry} (claim : a.serialLaw → e.frame.claimLaw) :
    a.Sound (b.applyRemoved fill e) := by
  unfold Books.applyRemoved
  split
  · next frame => exact Sound.ite (h.applyOwnClaim fill (fun l => claim l _ _ _ _ frame)) h
  all_goals exact h

theorem Sound.foldl_applyRemoved (h : a.Sound b) (fill : Option Nat) {l : List TxEntry}
    (claims : a.serialLaw → ∀ e ∈ l, e.frame.claimLaw) : a.Sound (l.foldl (Books.applyRemoved fill) b) := by
  induction l generalizing b with
  | nil => exact h
  | cons e l ih =>
    exact ih (h.applyRemoved fill (fun s => claims s e (by simp))) (fun s x hx => claims s x (by simp [hx]))

/-- Entries removed (R30): what stays and what is applied were in the queue. -/
theorem Sound.removeEntries (h : a.Sound b) (fill : Option Nat) (how : Removal) (p : TxEntry → Bool) :
    a.Sound (b.removeEntries fill how p) := by
  refine h.trans ?_
  have marked : b.Sound { b with tx := ((b.tx.filter (fun e => !(p e && !e.underWay))).map
      (fun e => if p e && (e.removal = .none || how = .discard) then { e with removal := how } else e)) } := by
    refine (Sound.refl b).setTx ((b.kept_filterTx _).trans (kept_mapTx _ _ (fun e _ => by split <;> rfl))) ?_
    intro serials q hq
    obtain ⟨-, -, claims⟩ := serials
    obtain ⟨e, he, rfl⟩ := List.mem_map.1 hq
    have law := claims e (List.mem_filter.1 he).1
    split <;> exact law
  exact Sound.ite (marked.foldl_applyRemoved fill fun serials e he => serials.2.2 e (List.mem_filter.1 he).1) marked

theorem Sound.removeClaims (h : a.Sound b) (fill : Option Nat) : a.Sound (b.removeClaims fill) := h.removeEntries _ _ _

/-! ### Closing, and frames joining or dropped (R24, R28, R42, R43) -/

theorem Sound.enterClosing (h : a.Sound b) (fill : Option Nat) (n : Nat) (role : CloseRole) :
    a.Sound (b.enterClosing fill n role) := by
  refine Sound.thin (Sound.removeEntries ?_ _ _ _) (fun r => r.surrender_thins _)
  exact h.thin (fun _ => ⟨rfl, rfl, rfl, rfl, .refl _⟩)

theorem Sound.enterClosed (h : a.Sound b) (fill : Option Nat) (n : Nat) (role : CloseRole) :
    a.Sound (b.enterClosed fill n role) := by
  refine Sound.thin (Sound.removeEntries ?_ _ _ _) Invoice.surrenderAll_thins
  exact Sound.thin (Sound.ite (h.enterClosing fill n .peer) h) (fun _ => ⟨rfl, rfl, rfl, rfl, .refl _⟩)

theorem Sound.callLeaves (h : a.Sound b) (fill : Option Nat) (n round : Nat) : a.Sound (b.callLeaves fill n round) := by
  unfold Books.callLeaves
  split
  · exact h
  · exact Sound.ite ((h.enterClosing fill n .closer).rounds _) (Sound.ite (h.rounds _) h)

theorem Sound.censusLeaves (h : a.Sound b) (n : Nat) : a.Sound (b.censusLeaves n) :=
  h.thin (fun r => by split; exacts [⟨rfl, rfl, rfl, rfl, .refl _⟩, .refl r])

theorem Sound.applyOwn (h : a.Sound b) (fill : Option Nat) {f : Frame} (claim : a.serialLaw → f.claimLaw) :
    a.Sound (b.applyOwn fill f) := by
  cases f with
  | claim n planned first count => exact h.applyOwnClaim fill (fun l => claim l _ _ _ _ rfl)
  | chest n r => exact h.drawAll _
  | bin n k x m q => exact h.binAction _ _ _ _
  | census n planned => exact h.censusLeaves n
  | closeCall n round packed planned => exact h.callLeaves fill n round
  | _ => exact h

theorem Sound.dropFrame (h : a.Sound b) (fill : Option Nat) (f : Frame) : a.Sound (b.dropFrame fill f) := by
  have dropped : a.Sound (b.raiseFault .txQueueFull) := h.raiseFault rfl
  by_cases claim : f.kind = 4
  · rwa [b.dropFrame_claim fill claim]
  · rw [b.dropFrame_other fill claim]
    exact dropped.applyOwn fill (fun _ => Frame.claimLaw_of_kind claim)

theorem Sound.queueFrame (h : a.Sound b) (fill : Option Nat) {f : Frame} (claim : b.serialLaw → f.claimLaw) :
    a.Sound (b.queueFrame fill f) := by
  have kept := b.kept_queueFrame fill f
  unfold Books.queueFrame at kept ⊢
  split
  · next room =>
    rw [if_pos room] at kept
    refine h.setTx kept (fun serials e he => ?_)
    rcases List.mem_append.1 he with old | new
    · exact serials.2.2 e old
    · rw [List.mem_singleton.1 new]; exact claim serials
  · exact h.dropFrame fill f

/-- A frame of a kind other than CLAIM. -/
theorem Sound.queueOther (h : a.Sound b) (fill : Option Nat) {f : Frame} (other : (f.kind == 4) = false) :
    a.Sound (b.queueFrame fill f) := h.queueFrame fill (fun _ => Frame.claimLaw_of_kind (by simpa using other))

/-! ### Attempts (R26, R27, R30) -/

theorem mem_mapFirst {α : Type} {p : α → Bool} {f : α → α} {l : List α} {y : α} (h : y ∈ mapFirst p f l) :
    ∃ x ∈ l, y = x ∨ y = f x := by
  induction l with
  | nil => cases h
  | cons x l ih =>
    unfold mapFirst at h
    split at h
    · rcases List.mem_cons.1 h with rfl | h
      · exact ⟨x, by simp, .inr rfl⟩
      · exact ⟨y, by simp [h], .inl rfl⟩
    · rcases List.mem_cons.1 h with rfl | h
      · exact ⟨y, by simp, .inl rfl⟩
      · obtain ⟨z, hz, e⟩ := ih h
        exact ⟨z, by simp [hz], e⟩

theorem Sound.beginAttempt (h : a.Sound b) : a.Sound b.beginAttempt := by
  refine h.setTx b.kept_beginAttempt (fun serials y hy => ?_)
  obtain ⟨x, hx, rfl | rfl⟩ := mem_mapFirst hy
  · exact serials.2.2 y hx
  · exact serials.2.2 x hx

theorem Sound.dropSending (h : a.Sound b) : a.Sound b.dropSending :=
  h.setTx b.kept_dropSending (fun serials e he => serials.2.2 e (List.mem_filter.1 he).1)

/-- Entries changed in what is neither their frame nor their kind. -/
theorem Sound.mapTx (h : a.Sound b) {f : TxEntry → TxEntry} (frame : ∀ e, (f e).frame = e.frame) :
    a.Sound { b with tx := b.tx.map f } := by
  refine h.setTx (b.kept_mapTx f (fun e _ => by rw [frame])) (fun serials q hq => ?_)
  obtain ⟨e, he, rfl⟩ := List.mem_map.1 hq
  rw [frame]
  exact serials.2.2 e he

theorem Sound.leaveRemoved (h : a.Sound b) (fill : Option Nat) {e : TxEntry} (claim : a.serialLaw → e.frame.claimLaw) :
    a.Sound (b.leaveRemoved fill e) := Sound.ite h.dropSending (h.dropSending.applyRemoved fill claim)

/-- The entry under way is in the queue, so its CLAIM is in range. -/
theorem sending_claimLaw {e : TxEntry} (sending : b.sending = some e) (serials : b.serialLaw) : e.frame.claimLaw :=
  serials.2.2 e (List.mem_of_find?_eq_some sending)

theorem sound_attemptLost (b : Books) (fill : Option Nat) : b.Sound (b.attemptLost fill) := by
  unfold Books.attemptLost
  split
  · exact .refl b
  · next e sending =>
    exact Sound.ite ((Sound.refl b).mapTx (fun e => by split <;> rfl))
      ((Sound.refl b).leaveRemoved fill (sending_claimLaw sending))

theorem Sound.noteFirstAttempt (h : a.Sound b) {e : TxEntry} (claim : a.serialLaw → e.frame.claimLaw) :
    a.Sound (b.noteFirstAttempt e) := by
  unfold Books.noteFirstAttempt
  split
  · next frame => exact Sound.ite (h.claimSent (fun l => (claim l _ _ _ _ frame).2)) h
  all_goals exact h

theorem sound_attemptEnds (b : Books) (fill : Option Nat) (ack nak : Bool) : b.Sound (b.attemptEnds fill ack nak) := by
  unfold Books.attemptEnds
  split
  · exact .refl b
  · next e sending =>
    have claim : b.serialLaw → e.frame.claimLaw := sending_claimLaw sending
    have noted := (Sound.refl b).noteFirstAttempt claim
    refine Sound.ite (noted.leaveRemoved fill claim) ?_
    split
    · exact noted.mapTx (fun e => by split <;> rfl)
    · exact noted.dropSending.applyOwn fill claim
    · exact (noted.dropSending.raiseFault rfl).applyOwn fill claim
    · exact (noted.dropSending.raiseNotice _ _ _ _).applyOwn fill claim

/-! ### Claims made and rewritten (R29, R55) -/

/-- The claim of the next serials, while the high mark is below the ceiling, is in range. -/
theorem nextClaim_claimLaw {r : Invoice} {n : Nat} (found : b.invoice? n = some r) (left : r.high < r.ceiling)
    (serials : b.serialLaw) : (Frame.claim n r.planned (r.high + 1) (b.claimCount r)).claimLaw := by
  obtain ⟨records, -, -⟩ := serials
  obtain ⟨planned, ceiling, -, -⟩ := records r (invoice?_some found).1
  rw [Frame.claimLaw_claim]
  unfold claimCount
  omega

theorem Sound.rewriteClaim (h : a.Sound b) (n : Nat) : a.Sound (b.rewriteClaim n) := by
  refine h.trans ?_
  have kept := b.kept_rewriteClaim n
  unfold Books.rewriteClaim at kept ⊢
  split
  · exact .refl b
  · next r found =>
    simp only [found] at kept
    split
    · next some =>
      rw [if_pos some] at kept
      split
      · exact ((Sound.refl b).removeEntries _ _ _).raiseNotice _ _ _ _
      · next left =>
        rw [if_neg left] at kept
        refine (Sound.refl b).setTx kept (fun serials q hq => ?_)
        obtain ⟨e, he, rfl⟩ := List.mem_map.1 hq
        split
        · exact nextClaim_claimLaw found (by omega) serials
        · exact serials.2.2 e he
    · exact .refl b

theorem Sound.raiseHigh (h : a.Sound b) (n : Nat) {v : Nat} (small : v ≤ 99) : a.Sound (b.raiseHigh n v) := by
  refine h.trans ?_
  unfold Books.raiseHigh
  split
  · exact .refl b
  · next r found =>
    split
    · next below =>
      have the : ∀ q, b.invoice? n = some q → q = r := fun q hq => Option.some.inj (hq.symm.trans found)
      refine Sound.rewriteClaim (Sound.modifyInvoice (.refl b) ?_ ?_ ?_ ?_) n
      · exact fun _ => rfl
      · intro q hq; rw [the q hq]; exact below.le
      · exact fun _ _ => id
      · intro _ _ q hq law
        rw [the q hq] at law ⊢
        obtain ⟨planned, ceiling, -, free⟩ := law
        refine ⟨planned, ceiling, small, fun x hx => ?_⟩
        obtain ⟨h₁, h₂, h₃, h₄⟩ := free x hx
        exact ⟨h₁, h₂.trans below.le, h₃, h₄⟩
    · exact .refl b

theorem Sound.claimCheck (h : a.Sound b) (n : Nat) : a.Sound (b.claimCheck n) := by
  unfold Books.claimCheck
  split
  · exact h
  · next r found =>
    split
    · exact h
    · split
      · next left => exact h.queueFrame none (nextClaim_claimLaw found left)
      · exact h.raiseNotice _ _ _ _

theorem Sound.claimCheckIfEmptied (h : a.Sound b) (fill : Option Nat) (n : Nat) (before : List Nat) :
    a.Sound (b.claimCheckIfEmptied fill n before) := Sound.ite (h.claimCheck n) h

end Books
end Sys2Proof.Machine
end

section
/-! PROOFS. The Invoice Table, the Close Unit, the Chest Store and the frames heard keep the laws of the store and the
serials (O60). -/

namespace Sys2Proof.Machine

/-- An entry put in the place of one of its key adds none. -/
theorem putBy_length_of_mem {α : Type} {key : α → Nat} {x y : α} {l : List α}
    (ascending : l.Pairwise (fun a b => key a < key b)) (hy : y ∈ l) (same : key y = key x) :
    (putBy key x l).length = l.length := by
  induction l with
  | nil => cases hy
  | cons a l ih =>
    rw [List.pairwise_cons] at ascending
    unfold putBy
    split
    · next below =>
      rcases List.mem_cons.1 hy with rfl | hy
      · omega
      · have := ascending.1 y hy; omega
    · split
      · simp
      · next other =>
        rcases List.mem_cons.1 hy with rfl | hy
        · exact absurd same.symm other
        · simp [ih ascending.2 hy]

namespace Books

variable {a b : Books}

/-! ### The Invoice Table (R37 to R47) -/

theorem Sound.evalFull (h : a.Sound b) (n : Nat) : a.Sound (b.evalFull n) := by
  unfold Books.evalFull
  split
  · exact h
  · refine Sound.ite ?_ h
    have judged : ∀ v : Bool, a.Sound (b.modifyInvoice n (fun r => { r with full := v })) :=
      fun v => h.thin (fun _ => ⟨rfl, rfl, rfl, rfl, .refl _⟩)
    exact Sound.ite ((judged _).raiseNotice _ _ _ _) (judged _)

theorem Sound.startCensus (h : a.Sound b) (n : Nat) : a.Sound (b.startCensus n) := by
  unfold Books.startCensus
  split
  · exact h
  · refine Sound.queueOther ?_ none rfl
    exact h.thin (fun _ => ⟨rfl, rfl, rfl, rfl, .refl _⟩)

theorem Sound.staleRecord (h : a.Sound b) (n : Nat) : a.Sound (b.staleRecord n) := by
  have stale : a.Sound (b.modifyInvoice n (fun r => { r with state := .stale })) :=
    h.thin (fun _ => ⟨rfl, rfl, rfl, rfl, .refl _⟩)
  have again : a.Sound (b.modifyInvoice n (fun r => { r with state := .stale, recount := true })) :=
    h.thin (fun _ => ⟨rfl, rfl, rfl, rfl, .refl _⟩)
  unfold Books.staleRecord
  split
  · exact h
  · split
    · exact stale.startCensus n
    · exact stale
    · exact stale
    · exact again
    · exact again
    all_goals exact h

theorem Sound.staleRequest (h : a.Sound b) : a.Sound b.staleRequest := by
  unfold Books.staleRequest
  generalize b.invoices.map (·.number) = l
  induction l generalizing b with
  | nil => exact h
  | cons n l ih => exact ih (h.staleRecord n)

theorem Sound.joinParticipants (h : a.Sound b) (n k : Nat) : a.Sound (b.joinParticipants n k) :=
  h.thin (f := fun r => { r with participants := insertAsc k r.participants }) (fun _ => ⟨rfl, rfl, rfl, rfl, .refl _⟩)

/-- The ceiling falls to a count below it (R45, R61). -/
theorem Sound.lowerCeiling (h : a.Sound b) (fill : Option Nat) {n c : Nat}
    (lower : ∀ r, b.invoice? n = some r → c ≤ r.ceiling) : a.Sound (b.lowerCeiling fill n c) := by
  refine Sound.claimCheckIfEmptied (Sound.evalFull (Sound.rewriteClaim ?_ n) n) fill n _
  refine h.modifyInvoice (fun _ => by rfl) (fun _ _ => le_rfl) (fun _ _ law => Invoice.freeLaw_filter law _) ?_
  intro _ _ r found law
  obtain ⟨planned, ceiling, high, free⟩ := law
  refine ⟨planned, (lower r found).trans ceiling, high, fun x hx => ?_⟩
  obtain ⟨old, below⟩ := List.mem_filter.1 hx
  obtain ⟨h₁, h₂, -, h₄⟩ := free x old
  exact ⟨h₁, h₂, of_decide_eq_true below, h₄⟩

theorem Sound.comparePlan (h : a.Sound b) (fill : Option Nat) (n heard : Nat) : a.Sound (b.comparePlan fill n heard) := by
  have raised : a.Sound (b.raiseFault .planMismatch) := h.raiseFault rfl
  unfold Books.comparePlan
  split
  · exact h
  · next r found =>
    refine Sound.ite ?_ h
    dsimp only
    split
    · next lower =>
      refine raised.lowerCeiling fill (fun q hq => ?_)
      obtain rfl : r = q := Option.some.inj (found.symm.trans hq)
      exact lower.le
    · exact raised

theorem Sound.queueTally (h : a.Sound b) (n answerTo inProgress : Nat) : a.Sound (b.queueTally n answerTo inProgress) := by
  unfold Books.queueTally
  split
  · exact h
  · exact h.queueOther none rfl

theorem Sound.noteTally (h : a.Sound b) (n k p : Nat) : a.Sound (b.noteTally n k p) := by
  refine h.thin (fun r => ?_)
  split
  · exact ⟨rfl, rfl, rfl, rfl, .refl _⟩
  all_goals exact .refl r

theorem Sound.endCensusWindow (h : a.Sound b) (n : Nat) : a.Sound (b.endCensusWindow n) := by
  unfold Books.endCensusWindow
  split
  · exact h
  · refine Sound.ite (Sound.startCensus ?_ n) (Sound.raiseNotice ?_ _ _ _ _)
    · exact h.thin (fun _ => ⟨rfl, rfl, rfl, rfl, .refl _⟩)
    · exact h.thin (fun _ => ⟨rfl, rfl, rfl, rfl, .refl _⟩)

/-! ### The Close Unit (R154 to R158) -/

theorem Sound.completeRound (h : a.Sound b) (n : Nat) : a.Sound (b.completeRound n) := by
  unfold Books.completeRound
  split
  · exact ((((h.sheets _).queueOther none rfl).enterClosed none n .closer).raiseNotice _ _ _ _).rounds _
  · exact h

theorem Sound.earlyCompletion (h : a.Sound b) (n : Nat) : a.Sound (b.earlyCompletion n) := by
  unfold Books.earlyCompletion
  split
  · exact h
  · split
    · exact Sound.ite (h.completeRound n) h
    · exact h
    · exact h

theorem Sound.recordAnswer (h : a.Sound b) (n : Nat) (x : Answer) : a.Sound (b.recordAnswer n x) :=
  (h.rounds _).earlyCompletion n

theorem Sound.endCloseWindow (h : a.Sound b) (n : Nat) : a.Sound (b.endCloseWindow n) := by
  unfold Books.endCloseWindow
  split
  · exact Sound.ite (Sound.ite (Sound.queueOther (h.rounds _) none rfl) (h.completeRound n))
      (Sound.ite (h.rounds _) (h.completeRound n))
  · exact h

theorem Sound.endExtension (h : a.Sound b) (n : Nat) : a.Sound (b.endExtension n) := by
  unfold Books.endExtension
  split
  · exact h
  · exact Sound.ite (h.rounds _) (h.completeRound n)

theorem Sound.fillEnded (h : a.Sound b) (n : Nat) : a.Sound (b.fillEnded n) := by
  unfold Books.fillEnded
  split
  · exact h
  · refine Sound.ite ?_ h
    split
    · exact h.queueTally n 2 0
    · exact h.recordAnswer n _
    · exact h

theorem Sound.chestLost (h : a.Sound b) (f : Fill) : a.Sound (b.chestLost f) := by
  rw [Books.chestLost_eq]
  exact Sound.ite h ((h.surrenderKept _).fillEnded _)

/-! ### The Chest Store (R138 to R147) -/

/-- A record of the store written anew under its own key. -/
theorem sound_rewriteChest {c c' : Chest} (hc : c ∈ b.chests) (invoice : c'.invoice = c.invoice) (key : c'.key = c.key) :
    b.Sound (b.putChest c') := by
  have order : c.order = c'.order := by unfold Chest.order; rw [invoice, key]
  refine ⟨b.kept_putChest c', rfl, fun shelf => ?_, fun orphans => ?_, fun _ serials => ?_⟩
  · obtain ⟨ascending, slots⟩ := id shelf
    refine ⟨putBy_pairwise ascending, ?_⟩
    rwa [show (b.putChest c').chests.length = b.chests.length from putBy_length_of_mem ascending hc order]
  · obtain ⟨counter, small⟩ := id orphans
    refine ⟨counter, fun d hd k hk => ?_⟩
    rcases mem_putBy hd with rfl | hd
    · exact small c hc k (key ▸ hk)
    · exact small d hd k hk
  · obtain ⟨records, chests, claims⟩ := id serials
    refine ⟨fun r hr => ?_, fun d hd => ?_, claims⟩
    · obtain ⟨planned, ceiling, high, free⟩ := records r hr
      refine ⟨planned, ceiling, high, fun x hx => ?_⟩
      obtain ⟨h₁, h₂, h₃, h₄⟩ := free x hx
      refine ⟨h₁, h₂, h₃, fun d hd => ?_⟩
      rcases mem_putBy hd with rfl | hd
      · rw [invoice, key]; exact h₄ c hc
      · exact h₄ d hd
    · rcases mem_putBy hd with rfl | hd
      · obtain ⟨r, hr, number, covers⟩ := chests c hc
        exact ⟨r, hr, number.trans invoice.symm, fun x hx => covers x (key ▸ hx)⟩
      · exact chests d hd

theorem Sound.rewriteChest (h : a.Sound b) {n k : Nat} {c c' : Chest} (found : b.chest? n k = some c)
    (invoice : c'.invoice = c.invoice) (key : c'.key = c.key) : a.Sound (b.putChest c') :=
  h.trans (sound_rewriteChest (chest?_some found).1 invoice key)

/-- Fewer chests of the store keep the serials' law. -/
theorem serialLaw_of_subset {chests : List Chest} (fewer : ∀ c ∈ chests, c ∈ b.chests) (law : b.serialLaw) :
    ({ b with chests := chests } : Books).serialLaw := by
  obtain ⟨records, covered, claims⟩ := law
  refine ⟨fun r hr => ?_, fun c hc => covered c (fewer c hc), claims⟩
  obtain ⟨planned, ceiling, high, free⟩ := records r hr
  refine ⟨planned, ceiling, high, fun x hx => ?_⟩
  obtain ⟨h₁, h₂, h₃, h₄⟩ := free x hx
  exact ⟨h₁, h₂, h₃, fun c hc => h₄ c (fewer c hc)⟩

theorem Sound.dropChests (h : a.Sound b) (p : Chest → Bool) : a.Sound (b.dropChests p) := by
  refine h.trans (Sound.noteSlots ⟨.of_stores .., rfl, fun shelf => ?_, fun orphans => ?_, fun _ => ?_⟩)
  · obtain ⟨ascending, slots⟩ := shelf
    exact ⟨ascending.filter _, (Nat.add_le_add_right (List.length_filter_le _ _) _).trans slots⟩
  · obtain ⟨counter, small⟩ := orphans
    exact ⟨counter, fun c hc => small c (List.mem_filter.1 hc).1⟩
  · exact serialLaw_of_subset (fun c hc => (List.mem_filter.1 hc).1)

theorem noteSlots_ledger (b : Books) : b.noteSlots.ledger = b.ledger := by
  unfold noteSlots; split <;> rfl

theorem dropChests_chests (b : Books) (p : Chest → Bool) : (b.dropChests p).chests = b.chests.filter (fun c => !p c) :=
  congrArg (·.2.2.1) (noteSlots_ledger _)

theorem dropChests_invoices (b : Books) (p : Chest → Bool) : (b.dropChests p).invoices = b.invoices :=
  congrArg (·.1) (noteSlots_ledger _)

theorem Sound.heardVoid (h : a.Sound b) (sender n serial : Nat) : a.Sound (b.heardVoid sender n serial) := by
  unfold Books.heardVoid
  split
  · exact h
  · next c found =>
    exact Sound.ite (Sound.ite ((h.dropChests _).evalFull n) (Sound.ite (h.rewriteChest found rfl rfl) h)) h

theorem Sound.heardSample (h : a.Sound b) (n serial weight : Nat) : a.Sound (b.heardSample n serial weight) := by
  unfold Books.heardSample
  split
  · exact h
  · next c found => exact Sound.ite (h.rewriteChest found rfl rfl) h

theorem Sound.heardMark (h : a.Sound b) (sender n serial status : Nat) :
    a.Sound (b.heardMark sender n serial status) := by
  unfold Books.heardMark
  split
  · exact h
  · next c found => exact Sound.ite (h.rewriteChest found rfl rfl) h

theorem Sound.recordSample (h : a.Sound b) (n serial weight : Nat) : a.Sound (b.recordSample n serial weight) := by
  unfold Books.recordSample
  split
  · exact h
  · next c found => exact (h.rewriteChest (c' := { c with sample := some weight }) found rfl rfl).queueOther none rfl

theorem Sound.markDone (h : a.Sound b) (n serial : Nat) (defect : Bool) : a.Sound (b.markDone n serial defect) := by
  unfold Books.markDone
  dsimp only
  split
  · next c own =>
    obtain ⟨found, -⟩ := Option.filter_eq_some_iff.1 own
    refine Sound.raiseNotice (Sound.queueOther ?_ none rfl) _ _ _ _
    exact h.rewriteChest found rfl rfl
  · exact h.raiseNotice _ _ _ _

end Books
end Sys2Proof.Machine
end

section
/-! PROOFS. Chests heard, the frames that other stations send, and the commands that change the tables keep the laws of the
store and the serials (O60). -/

namespace Sys2Proof.Machine

namespace Books

variable {a b : Books}

/-! ### A chest heard: its record comes before its serial is dealt with (R60, R141, R142) -/

/-- The serials' law but for the record of one serial: it holds of the tables with a store that lacks at most that record. -/
def serialLawBut (b : Books) (n serial : Nat) : Prop :=
  ∃ l : List Chest, (∀ c ∈ b.chests, c ∈ l ∨ (c.invoice = n ∧ c.key = .packed serial))
    ∧ ({ b with chests := l } : Books).serialLaw

theorem serialLaw.but (law : b.serialLaw) (n serial : Nat) : b.serialLawBut n serial :=
  ⟨b.chests, fun _ => .inl, law⟩

/-- FULL is no part of the law, whatever the store holds. -/
theorem evalFull_serialLaw {l : List Chest} (law : ({ b with chests := l } : Books).serialLaw)
    (invoices : b.invoiceLaw) (n : Nat) : ({ b.evalFull n with chests := l } : Books).serialLaw := by
  unfold Books.evalFull
  split
  · exact law
  · split
    · have judged : ∀ v : Bool,
          (({ b with chests := l } : Books).modifyInvoice n (fun r => { r with full := v })).serialLaw := fun v =>
        (Sound.thin (.refl { b with chests := l }) (by exact fun _ => ⟨rfl, rfl, rfl, rfl, .refl _⟩)).serials invoices law
      dsimp only
      split
      · unfold Books.raiseNotice
        split <;> exact judged _
      · exact judged _
    · exact law

theorem evalFull_chests (b : Books) (n : Nat) : (b.evalFull n).chests = b.chests := by
  unfold Books.evalFull
  split
  · rfl
  · split
    · dsimp only
      split
      · exact congrArg (·.2.2.1) (raiseNotice_ledger _ _ _ _ _)
      · rfl
    · rfl

/-- The new record of a chest heard keeps the other laws: a slot is there for it. -/
theorem makeHeard_law (b : Books) (c : Chest) {k : Nat} (key : c.key = .packed k) :
    (b.makeHeard c).reservation = b.reservation ∧ (b.shelfLaw → (b.makeHeard c).shelfLaw)
    ∧ (b.orphanLaw → (b.makeHeard c).orphanLaw)
    ∧ (b.invoiceLaw → b.serialLaw → (b.makeHeard c).serialLawBut c.invoice k) := by
  unfold makeHeard
  split
  · next room =>
    have judged := Sound.evalFull (.refl (b.putChest c)) c.invoice
    refine ⟨judged.slot, fun shelf => judged.shelf ?_, fun orphans => judged.orphans ?_, fun invoices serials => ?_⟩
    · obtain ⟨ascending, slots⟩ := id shelf
      have one := putBy_length_le Chest.order c b.chests
      refine ⟨putBy_pairwise ascending, ?_⟩
      dsimp only [Books.putChest]
      simp only [roomForHeard, freeSlots] at room
      split at room <;> simp_all <;> omega
    · obtain ⟨counter, small⟩ := id orphans
      refine ⟨counter, fun d hd j hj => ?_⟩
      rcases mem_putBy hd with rfl | hd
      · rw [key] at hj; cases hj
      · exact small d hd j hj
    · refine ⟨b.chests, fun d hd => ?_, evalFull_serialLaw (b := b.putChest c) serials invoices c.invoice⟩
      rw [evalFull_chests] at hd
      rcases mem_putBy hd with rfl | hd
      · exact .inr ⟨rfl, key⟩
      · exact .inl hd
  · have full : b.Sound ((b.modifyInvoice c.invoice (fun r => { r with view := .short })).raiseFault .storeFull) := by
      refine Sound.raiseFault ?_ rfl
      exact Sound.thin (.refl b) (fun _ => ⟨rfl, rfl, rfl, rfl, .refl _⟩)
    exact ⟨full.slot, full.shelf, full.orphans, fun invoices serials => (full.serials invoices serials).but _ _⟩

theorem storeHeard_law (b : Books) (sender n : Nat) (r : ChestReport) (isRepeat : Bool) :
    (b.storeHeard sender n r isRepeat).reservation = b.reservation
    ∧ (b.shelfLaw → (b.storeHeard sender n r isRepeat).shelfLaw)
    ∧ (b.orphanLaw → (b.storeHeard sender n r isRepeat).orphanLaw)
    ∧ (b.invoiceLaw → b.serialLaw → (b.storeHeard sender n r isRepeat).serialLawBut n r.serial) := by
  have whole : ∀ {c : Books}, b.Sound c → c.reservation = b.reservation ∧ (b.shelfLaw → c.shelfLaw)
      ∧ (b.orphanLaw → c.orphanLaw) ∧ (b.invoiceLaw → b.serialLaw → c.serialLawBut n r.serial) := fun h =>
    ⟨h.slot, h.shelf, h.orphans, fun invoices serials => (h.serials invoices serials).but _ _⟩
  unfold storeHeard
  dsimp only
  split
  · exact b.makeHeard_law (heardRecord sender n r) rfl
  · next old found =>
    obtain ⟨-, invoice, key⟩ := chest?_some found
    split
    · split
      · exact whole (.refl b)
      · exact whole (Sound.rewriteChest (.refl b) found invoice.symm key.symm)
    · have marked := Sound.rewriteChest (c' := { old with conflict := some sender }) (.refl b) found rfl rfl
      split
      · exact whole marked
      · exact whole (marked.raiseNotice _ _ _ _)

/-! ### Which records are in the table -/

theorem hasNumber_iff (b : Books) (n : Nat) : (∃ r, b.invoice? n = some r) ↔ n ∈ b.invoices.map (·.number) := by
  rw [← Option.isSome_iff_exists, invoice?, List.find?_isSome]
  simp

theorem modifyInvoice_numbers (b : Books) (n : Nat) {f : Invoice → Invoice} (number : ∀ r, (f r).number = r.number) :
    (b.modifyInvoice n f).invoices.map (·.number) = b.invoices.map (·.number) := by
  simp only [modifyInvoice, List.map_map]
  refine List.map_congr_left fun r _ => ?_
  simp only [Function.comp]
  split
  · exact number r
  · rfl

theorem raiseNotice_invoices (b : Books) (k : NoticeKind) (i s v : Option Nat) :
    (b.raiseNotice k i s v).invoices = b.invoices := congrArg (·.1) (b.raiseNotice_ledger k i s v)

theorem evalFull_numbers (b : Books) (n : Nat) : (b.evalFull n).invoices.map (·.number) = b.invoices.map (·.number) := by
  unfold Books.evalFull
  split
  · rfl
  · split
    · dsimp only
      split
      · rw [raiseNotice_invoices, modifyInvoice_numbers b n (fun _ => by rfl)]
      · rw [modifyInvoice_numbers b n (fun _ => by rfl)]
    · rfl

theorem storeHeard_numbers (b : Books) (sender n : Nat) (r : ChestReport) (isRepeat : Bool) :
    (b.storeHeard sender n r isRepeat).invoices.map (·.number) = b.invoices.map (·.number) := by
  unfold storeHeard
  dsimp only
  split
  · unfold makeHeard
    split
    · exact evalFull_numbers _ _
    · exact modifyInvoice_numbers b _ (fun _ => by rfl)
  · split
    · split <;> rfl
    · split
      · rfl
      · rw [raiseNotice_invoices]; rfl

theorem joinParticipants_present {n : Nat} {r : Invoice} (found : b.invoice? n = some r) (sender : Nat) :
    ∃ q, (b.joinParticipants n sender).invoice? n = some q := by
  unfold joinParticipants
  rw [b.invoice?_modifyInvoice n n (fun _ => by rfl), if_pos rfl, found]
  exact ⟨_, rfl⟩

theorem storeHeard_present {n : Nat} (present : ∃ q, b.invoice? n = some q) (sender : Nat) (r : ChestReport)
    (isRepeat : Bool) : ∃ q, (b.storeHeard sender n r isRepeat).invoice? n = some q := by
  rw [hasNumber_iff, storeHeard_numbers]
  exact (b.hasNumber_iff n).1 present

/-! ### A heard serial dealt with (R60) -/

/-- What dealing with a heard serial does to its record (R60). -/
structure Settles (serial : Nat) (r q : Invoice) : Prop where
  number : q.number = r.number
  planned : q.planned = r.planned
  ceiling : q.ceiling = r.ceiling
  high : q.high = max r.high serial
  free : ∀ x ∈ q.free, x ∈ r.free ∧ x ≠ serial

/-- A record settled for a serial keeps the law, whether or not the store holds that serial. -/
theorem Settles.serialLaw {serial : Nat} {r q : Invoice} (settles : Settles serial r q) (small : serial ≤ 99)
    {l chests : List Chest} (law : r.serialLaw l)
    (most : ∀ c ∈ chests, c ∈ l ∨ (c.invoice = r.number ∧ c.key = .packed serial)) : q.serialLaw chests := by
  obtain ⟨number, planned, ceiling, high, free⟩ := settles
  obtain ⟨hplanned, hceiling, hhigh, hfree⟩ := law
  unfold Invoice.serialLaw
  rw [planned, ceiling, high, number]
  refine ⟨hplanned, hceiling, by omega, fun x hx => ?_⟩
  obtain ⟨old, other⟩ := free x hx
  obtain ⟨h₁, h₂, h₃, h₄⟩ := hfree x old
  refine ⟨h₁, by omega, h₃, fun c hc invoice key => ?_⟩
  rcases most c hc with kept | ⟨-, new⟩
  · exact h₄ c kept invoice key
  · rw [new] at key; cases key; exact other rfl

/-- The law holds again once the heard serial's record is settled. -/
theorem serialLawBut.settle {n serial : Nat} (law : b.serialLawBut n serial) (low : 1 ≤ serial) (small : serial ≤ 99)
    {q : Invoice} (found : b.invoice? n = some q) (invoices : b.invoiceLaw) {f : Invoice → Invoice}
    (settles : ∀ r, b.invoice? n = some r → Settles serial r (f r)) : (b.modifyInvoice n f).serialLaw := by
  obtain ⟨l, most, records, covered, claims⟩ := law
  obtain ⟨hq, hn⟩ := invoice?_some found
  have settled : ∀ r ∈ b.invoices, r.number = n → Settles serial r (f r) :=
    fun r hr hn => settles r (hn ▸ invoice?_of_mem invoices hr)
  have grown : ∀ r ∈ b.invoices, ∃ p ∈ (b.modifyInvoice n f).invoices, p.number = r.number ∧ r.high ≤ p.high
      ∧ (r.number = n → serial ≤ p.high) := by
    intro r hr
    refine ⟨_, List.mem_map.2 ⟨r, hr, rfl⟩, ?_⟩
    split
    · next hn =>
      have s := settled r hr hn
      exact ⟨s.number, by rw [s.high]; omega, fun _ => by rw [s.high]; omega⟩
    · next hn => exact ⟨rfl, le_rfl, fun e => absurd e hn⟩
  refine ⟨fun p hp => ?_, fun c hc => ?_, claims⟩
  · obtain ⟨r, hr, rfl⟩ := List.mem_map.1 hp
    split
    · next hn => exact (settled r hr hn).serialLaw small (records r hr) (hn ▸ most)
    · next hn =>
      obtain ⟨planned, ceiling, high, free⟩ := records r hr
      refine ⟨planned, ceiling, high, fun x hx => ?_⟩
      obtain ⟨h₁, h₂, h₃, h₄⟩ := free x hx
      exact ⟨h₁, h₂, h₃, fun c hc invoice => h₄ c
        ((most c hc).resolve_right fun new => hn (invoice.symm.trans new.1)) invoice⟩
  · rcases most c hc with kept | ⟨new, key⟩
    · obtain ⟨r, hr, invoice, covers⟩ := covered c kept
      obtain ⟨p, hp, number, high, -⟩ := grown r hr
      exact ⟨p, hp, number.trans invoice, fun x hx => ⟨(covers x hx).1, (covers x hx).2.trans high⟩⟩
    · obtain ⟨p, hp, number, -, high⟩ := grown q hq
      refine ⟨p, hp, number.trans (hn.trans new.symm), fun x hx => ?_⟩
      rw [key] at hx
      cases hx
      exact ⟨low, high hn⟩

/-- The record of a heard serial with that serial off its free list, and in the yielded set where the sent claim has it
(R60). -/
def unfree (serial : Nat) (r : Invoice) : Invoice :=
  ({ r with free := r.free.filter (fun x => x ≠ serial) } : Invoice).yield serial

theorem unfree_thins (serial : Nat) (r : Invoice) : r.Thins (unfree serial r) :=
  Invoice.Thins.trans (q := { r with free := r.free.filter (fun x => x ≠ serial) })
    ⟨rfl, rfl, rfl, rfl, List.filter_sublist⟩ (Invoice.yield_thins _ _)

theorem mem_unfree_free {serial x : Nat} {r : Invoice} (hx : x ∈ (unfree serial r).free) : x ∈ r.free ∧ x ≠ serial := by
  rw [unfree, Invoice.yield_free] at hx
  simpa using hx

theorem heardSerial_eq (b : Books) (fill : Option Nat) (n serial : Nat) : b.heardSerial fill n serial
    = ((b.modifyInvoice n (unfree serial)).raiseHigh n serial).claimCheckIfEmptied fill n (b.freeOf n) := rfl

theorem Sound.heardSerial (h : a.Sound b) (fill : Option Nat) (n : Nat) {serial : Nat} (small : serial ≤ 99) :
    a.Sound (b.heardSerial fill n serial) :=
  ((h.thin (unfree_thins serial)).raiseHigh n small).claimCheckIfEmptied fill n _

theorem serialLawBut.heardSerial {n serial : Nat} (law : b.serialLawBut n serial) (low : 1 ≤ serial)
    (small : serial ≤ 99) {q : Invoice} (found : b.invoice? n = some q) (invoices : b.invoiceLaw) (fill : Option Nat) :
    (b.heardSerial fill n serial).serialLaw := by
  have thins := unfree_thins serial
  have off : b.Kept (b.modifyInvoice n (unfree serial)) := (Sound.thin (.refl b) thins).kept
  have the : ∀ r, b.invoice? n = some r → r = q := fun r hr => Option.some.inj (hr.symm.trans found)
  rw [heardSerial_eq]
  refine Sound.serials (Sound.claimCheckIfEmptied (.refl _) fill n _) ((off.trans (kept_raiseHigh _ n serial)).free invoices) ?_
  unfold Books.raiseHigh
  rw [b.invoice?_modifyInvoice n n (fun r => (thins r).number), if_pos rfl, found]
  dsimp only [Option.map_some]
  rw [(thins q).high]
  split
  · next below =>
    rw [modifyInvoice_modifyInvoice b n (fun r => (thins r).number)]
    refine Sound.serials (Sound.rewriteClaim (.refl _) n) ?_ (law.settle low small found invoices fun r hr => ?_)
    · exact (b.kept_modifyInvoice n (by exact fun r => (thins r).number) (by exact fun r l => (thins r).freeLaw l)).free
        invoices
    · have t := thins r
      exact ⟨t.number, t.planned, t.ceiling, by rw [the r hr]; dsimp only; omega, fun x hx => mem_unfree_free hx⟩
  · next covered =>
    refine law.settle low small found invoices fun r hr => ?_
    have t := thins r
    exact ⟨t.number, t.planned, t.ceiling, by rw [t.high, the r hr]; omega, fun x hx => mem_unfree_free hx⟩

/-- A heard CHEST of R141 in range: its record and its serial together keep every law. -/
theorem sound_heardChest (b : Books) (fill : Option Nat) (sender n : Nat) {r : ChestReport} (small : r.serial ≤ 99)
    (isRepeat : Bool) : b.Sound (b.heardChest fill sender n r isRepeat) := by
  have kept := b.kept_heardChest fill sender n r isRepeat
  have joined := Sound.joinParticipants (.refl b) n sender
  unfold Books.heardChest at kept ⊢
  split
  · exact .refl b
  · next rec found =>
    simp only [found] at kept
    split
    · exact joined
    · next low =>
      rw [if_neg low] at kept
      dsimp only at kept ⊢
      split
      · exact joined.heardSerial fill n small
      · next state =>
        rw [if_neg state] at kept
        obtain ⟨slot, shelf, orphans, serials⟩ := (b.joinParticipants n sender).storeHeard_law sender n r isRepeat
        have stored := (b.joinParticipants n sender).kept_storeHeard sender n r isRepeat
        have heard := Sound.heardSerial (.refl ((b.joinParticipants n sender).storeHeard sender n r isRepeat)) fill n small
        refine ⟨kept, heard.slot.trans (slot.trans joined.slot), fun l => heard.shelf (shelf (joined.shelf l)),
          fun l => heard.orphans (orphans (joined.orphans l)), fun i l => ?_⟩
        obtain ⟨q, hq⟩ := storeHeard_present (joinParticipants_present found sender) sender r isRepeat
        exact (serials (joined.kept.free i) (joined.serials i l)).heardSerial (by omega) small hq
          (stored.free (joined.kept.free i)) fill

end Books
end Sys2Proof.Machine
end

section
/-! PROOFS. The frames that other stations send, and the commands that change the tables, keep the laws of the store and the
serials (O60). -/

namespace Sys2Proof.Machine

namespace Books

variable {a b : Books}

/-! ### Frames heard (R19, R38 to R45, R58, R73, R75, R152 to R162) -/

theorem Sound.heardCensus (h : a.Sound b) (fill : Option Nat) (n planned : Nat) :
    a.Sound (b.heardCensus fill n planned) := (h.comparePlan fill n planned).queueTally n 1 _

theorem Sound.heardTally (h : a.Sound b) (fill : Option Nat) (sender n : Nat) {t : Tally} (small : t.high ≤ 99) :
    a.Sound (b.heardTally fill sender n t) := by
  have joined := h.joinParticipants n sender
  have compared := (Sound.ite (c := ((b.joinParticipants n sender).invoice? n).any (fun r => r.state = .closed) = true)
    joined (joined.raiseHigh n small)).comparePlan fill n t.planned
  exact Sound.ite (compared.noteTally n sender t.packed) (Sound.ite (compared.recordAnswer n _) compared)

theorem Sound.heardClaim (h : a.Sound b) (fill : Option Nat) (sender n planned : Nat) {first count : Nat}
    (up : first + count ≤ 100) : a.Sound (b.heardClaim fill sender n planned first count) := by
  have thins : ∀ r : Invoice, ({ r with high := max r.high (first + count - 1) } : Invoice).Thins
      ((({ r with high := max r.high (first + count - 1) } : Invoice).giveUp first count).yieldRange first count) :=
    fun r => (Invoice.giveUp_thins _ first count).trans (Invoice.yieldRange_thins _ first count)
  have marked : a.Sound (b.modifyInvoice n (fun r =>
      (({ r with high := max r.high (first + count - 1) } : Invoice).giveUp first count).yieldRange first count)) := by
    refine h.modifyInvoice (fun r => (thins r).number) (fun r _ => ?_) (fun r _ law => (thins r).freeLaw law)
      (fun _ _ r _ law => (thins r).serialLaw ?_)
    · rw [(thins r).high]; exact Nat.le_max_left _ _
    · obtain ⟨planned, ceiling, high, free⟩ := law
      refine ⟨planned, ceiling, by dsimp only; omega, fun x hx => ?_⟩
      obtain ⟨h₁, h₂, h₃, h₄⟩ := free x hx
      exact ⟨h₁, h₂.trans (Nat.le_max_left _ _), h₃, h₄⟩
  have rewritten := ((marked.joinParticipants n sender).comparePlan fill n planned).rewriteClaim n
  exact Sound.ite (rewritten.claimCheck n) rewritten

theorem sound_heardReport (b : Books) (fill : Option Nat) (sender n : Nat) {r : ChestReport} (small : r.serial ≤ 99) :
    b.Sound (b.heardReport fill sender n r) :=
  (Sound.ite (.refl b) (Sound.drawAll (.refl b) r.draws)).trans (sound_heardChest _ fill sender n small _)

theorem Sound.yieldCall (h : a.Sound b) (n v : Nat) : a.Sound (b.yieldCall n v) :=
  Sound.ite ((h.removeEntries _ _ _).raiseNotice _ _ _ _) h

theorem Sound.heardCall (h : a.Sound b) (fill : Option Nat) (n packed : Nat) : a.Sound (b.heardCall fill n packed) := by
  have peer := (((h.yieldCall n 1).enterClosing fill n .peer).queueTally n 2 (inProgressOf fill n)).raiseNotice
    .closeCalled (some n) none (some packed)
  unfold Books.heardCall
  split
  · exact h
  · split
    · exact peer
    · exact peer
    · exact peer
    · exact h.queueTally n 2 _
    · exact h.queueTally n 2 0

theorem Sound.heardClosed (h : a.Sound b) (fill : Option Nat) (n status packed missing net : Nat) :
    a.Sound (b.heardClosed fill n status packed missing net) := by
  unfold Books.heardClosed
  split
  · exact h
  · refine Sound.ite h (Sound.ite ?_ ?_)
    · exact Sound.raiseNotice (Sound.raiseNotice (Sound.enterClosed (h.rounds _) fill n .peer) _ _ _ _) _ _ _ _
    · exact ((h.yieldCall n 2).enterClosed fill n .peer).raiseNotice _ _ _ _

theorem Sound.heardIdle (h : a.Sound b) (lost : Bool) : a.Sound (b.heardIdle lost) :=
  Sound.ite (((h.clearCause _).raiseFault rfl).staleRequest) (h.clearCause _)

/-! ### Commands (R36, R48, R49, R74, R78, R143, R150) -/

theorem Sound.callClose (h : a.Sound b) (fill : Option Nat) (n : Nat) : a.Sound (b.callClose fill n) := by
  unfold Books.callClose
  split
  · exact h
  · exact h.queueOther fill rfl

theorem Sound.noFlowBin (h : a.Sound b) (n : Nat) : a.Sound (b.noFlowBin n) := (h.emptyBin n 0).queueOther none rfl

/-- A record leaves the table once no chest of the store is its own. -/
theorem Sound.dropInvoice (h : a.Sound b) {n : Nat} (alone : ∀ c ∈ b.chests, c.invoice ≠ n) :
    a.Sound (b.dropInvoice n) := by
  refine h.trans ⟨b.kept_dropInvoice n, rfl, id, id, fun _ serials => ?_⟩
  obtain ⟨records, covered, claims⟩ := serials
  refine ⟨fun r hr => records r (List.mem_filter.1 hr).1, fun c hc => ?_, claims⟩
  obtain ⟨r, hr, invoice, covers⟩ := covered c hc
  exact ⟨r, List.mem_filter.2 ⟨hr, by simpa [invoice] using alone c hc⟩, invoice, covers⟩

theorem dropChests_alone (b : Books) (n : Nat) : ∀ c ∈ (b.dropChests (fun c => c.invoice = n)).chests, c.invoice ≠ n := by
  intro c hc
  rw [dropChests_chests] at hc
  simpa using (List.mem_filter.1 hc).2

theorem freeSheet_chests (b : Books) (n : Nat) : (b.freeSheet n).chests = b.chests := by
  unfold freeSheet; split <;> rfl

theorem Sound.abandon (h : a.Sound b) (n : Nat) : a.Sound (b.abandon n) :=
  Sound.dropInvoice (((h.removeEntries _ _ _).dropChests _).rounds _) (dropChests_alone _ n)

theorem Sound.release (h : a.Sound b) (n : Nat) : a.Sound (b.release n) :=
  Sound.dropInvoice (((h.removeEntries _ _ _).dropChests _).freeSheet n)
    (by rw [freeSheet_chests]; exact dropChests_alone _ n)

theorem dropChests_invoice? (b : Books) (p : Chest → Bool) (n : Nat) : (b.dropChests p).invoice? n = b.invoice? n := by
  unfold invoice?; rw [dropChests_invoices]

/-- What VOID CHEST has found when it is taken (R63, R143). -/
theorem voidRefusal_none {n serial : Nat} (taken : b.voidRefusal n serial = none) :
    ∃ r c, b.invoice? n = some r ∧ b.chest? n serial = some c ∧ (serial ≤ r.ceiling → r.free.length < 16) := by
  unfold voidRefusal at taken
  split at taken
  · cases taken
  · next r found =>
    split at taken
    · cases taken
    · split at taken
      · cases taken
      · next c chest =>
        split at taken
        · cases taken
        · split at taken
          · cases taken
          · next room => exact ⟨r, c, found, chest, by simpa using room⟩

/-- A serial taken back is covered by the high mark, and is on no chest (R63). -/
theorem takeBack_serialLaw {r : Invoice} {serial : Nat} {chests : List Chest} (law : r.serialLaw chests)
    (low : 1 ≤ serial) (up : serial ≤ r.high) (gone : ∀ c ∈ chests, c.invoice = r.number → c.key ≠ .packed serial) :
    (r.takeBack serial).serialLaw chests := by
  obtain ⟨planned, ceiling, high, free⟩ := law
  unfold Invoice.takeBack
  split
  · next below =>
    refine ⟨planned, ceiling, high, fun x hx => ?_⟩
    rcases mem_insertAsc.1 hx with rfl | old
    · exact ⟨low, up, below, gone⟩
    · exact free x old
  · exact ⟨planned, ceiling, high, free⟩

/-- VOID CHEST taken: the serial was in use, so the high mark covers it, and its record is gone before it is free again. -/
theorem sound_voidChest {n serial : Nat} (taken : b.voidRefusal n serial = none) : b.Sound (b.voidChest n serial) := by
  obtain ⟨r, c, found, chest, room⟩ := voidRefusal_none taken
  obtain ⟨hc, invoice, key⟩ := chest?_some chest
  have the : ∀ q, (b.dropChests (fun c => c.invoice = n && c.key = .packed serial)).invoice? n = some q → r = q :=
    fun q hq => Option.some.inj (found.symm.trans ((dropChests_invoice? b _ n).symm.trans hq))
  have number : ∀ q : Invoice, (q.takeBack serial).number = q.number ∧ (q.takeBack serial).high = q.high := by
    intro q; unfold Invoice.takeBack; split <;> exact ⟨rfl, rfl⟩
  refine Sound.queueOther (Sound.evalFull (Sound.modifyInvoice (Sound.dropChests (.refl b) _) ?_ ?_ ?_ ?_) n) none rfl
  · exact fun q => (number q).1
  · exact fun q _ => (number q).2.ge
  · intro q hq law
    obtain rfl := the q hq
    unfold Invoice.takeBack
    split
    · next below =>
      exact ⟨(insertAsc_length_le _ _).trans (by have := room below; omega), insertAsc_pairwise law.2⟩
    · exact law
  · intro invoices serials q hq law
    obtain rfl := the q hq
    obtain ⟨p, hp, owner, covers⟩ := serials.2.1 c hc
    have same : b.invoice? n = some p := by rw [← invoice, ← owner]; exact invoice?_of_mem invoices hp
    obtain rfl : r = p := Option.some.inj (found.symm.trans same)
    obtain ⟨low, up⟩ := covers serial key
    refine takeBack_serialLaw law low up (fun d hd owner' key' => ?_)
    rw [dropChests_chests] at hd
    simp [owner', key', (invoice?_some found).2] at hd

/-- What OPEN INVOICE has found when it is taken (R35). -/
theorem openRefusal_none {p : List Byte} (taken : b.openRefusal p = none) :
    openInRange p = true ∧ b.invoice? (num2 p 0) = none ∧ b.invoices.length < 6 := by
  unfold openRefusal at taken
  split at taken
  · cases taken
  · split at taken
    · cases taken
    · split at taken
      · cases taken
      · split at taken
        · cases taken
        · split at taken
          · cases taken
          · next range _ _ fresh room =>
            exact ⟨by simpa using range, by simpa [hasInvoice] using fresh, by omega⟩

/-- A record opened joins the table with no serial and no chest (R36). -/
theorem sound_openInvoice {p : List Byte} (taken : b.openRefusal p = none) : b.Sound (b.openInvoice p) := by
  obtain ⟨range, fresh, room⟩ := openRefusal_none taken
  have planned : byteAt p 18 ≤ 99 := by
    simp only [openInRange, Bool.and_eq_true, inside_iff] at range
    omega
  have other : ∀ r ∈ b.invoices, r.number ≠ num2 p 0 := fun r hr => by
    simpa using List.find?_eq_none.1 fresh r hr
  unfold Books.openInvoice
  refine Sound.startCensus ?_ _
  refine ⟨?_, rfl, id, id, fun invoices serials => ?_⟩
  · refine ⟨rfl, rfl, rfl, rfl, rfl, rfl, rfl, rfl, rfl, id, fun invoices => ?_⟩
    obtain ⟨few, ascending, frees⟩ := invoices
    refine ⟨(putBy_length_le _ _ _).trans (by omega), putBy_pairwise (key := fun r : Invoice => r.number) ascending, ?_⟩
    intro r hr
    rcases mem_putBy hr with rfl | hr
    · exact Invoice.freeLaw_nil rfl
    · exact frees r hr
  · obtain ⟨records, covered, claims⟩ := serials
    have members := fun r : Invoice => mem_putBy_iff (x := newInvoice b.straps.station p) (y := r) invoices.2.1
    refine ⟨fun r hr => ?_, fun c hc => ?_, claims⟩
    · rcases mem_putBy hr with rfl | hr
      · exact ⟨planned, le_rfl, Nat.zero_le _, fun x hx => absurd hx List.not_mem_nil⟩
      · exact records r hr
    · obtain ⟨r, hr, invoice, covers⟩ := covered c hc
      exact ⟨r, (members r).2 (.inr ⟨hr, other r hr⟩), invoice, covers⟩

end Books
end Sys2Proof.Machine
end

section
/-! PROOFS. What the lane keeps of the laws of the tables: the settles, rejection, the cut and acceptance (R95, R112 to R117,
R139; O60). -/

namespace Sys2Proof.Machine

/-- A change of the machine that keeps every law of the tables (O60). -/
structure State.Keeps (s t : State) : Prop where
  lawful : s.books.lawful → t.books.lawful
  invoices : s.books.invoiceLaw → t.books.invoiceLaw
  inflight : s.inflightLaw → t.inflightLaw
  store : s.storeLaw → t.storeLaw
  reservation : s.reservationLaw → t.reservationLaw
  serials : s.books.invoiceLaw → s.books.serialLaw → t.books.serialLaw

/-- A change of the Fill Sequencer that enters no fill, gives no reservation number, and keeps the in-flight values. -/
structure Filler.Calm (f g : Filler) : Prop where
  inflight : (∀ v ∈ f.inflight.toList, v ≤ 300) → ∀ v ∈ g.inflight.toList, v ≤ 300
  step : g.step.inFill = true → f.step.inFill = true
  fill : ∀ x, g.fill = some x → ∃ y, f.fill = some y ∧ x.reservation = y.reservation

theorem Filler.Calm.refl (f : Filler) : f.Calm f := ⟨id, id, fun x hx => ⟨x, hx, rfl⟩⟩

namespace State

theorem storeLaw_iff (s : State) :
    s.storeLaw ↔ s.books.shelfLaw ∧ (s.filler.step.inFill = true → s.books.reservation.isSome = true) := by
  simp [storeLaw, Books.shelfLaw, and_assoc]

theorem reservationLaw_iff (s : State) :
    s.reservationLaw ↔ s.books.orphanLaw ∧ ∀ f, s.filler.fill = some f → f.reservation ≤ 255 := by
  unfold reservationLaw Books.orphanLaw
  tauto

theorem Keeps.refl (s : State) : s.Keeps s := ⟨id, id, id, id, id, fun _ => id⟩

theorem Keeps.trans {s t u : State} (h : s.Keeps t) (k : t.Keeps u) : s.Keeps u :=
  ⟨fun l => k.lawful (h.lawful l), fun l => k.invoices (h.invoices l), fun l => k.inflight (h.inflight l),
    fun l => k.store (h.store l), fun l => k.reservation (h.reservation l),
    fun i l => k.serials (h.invoices i) (h.serials i l)⟩

theorem Keeps.ite {s t t' : State} {c : Prop} [Decidable c] (h : s.Keeps t) (k : s.Keeps t') :
    s.Keeps (if c then t else t') := by split <;> assumption

theorem Keeps.of_sound {s t : State} (books : s.books.Sound t.books) (filler : s.filler.Calm t.filler) : s.Keeps t := by
  refine ⟨books.kept.lawful, books.kept.free, filler.inflight, ?_, ?_, books.serials⟩
  · rw [storeLaw_iff, storeLaw_iff, books.slot]
    exact fun ⟨shelf, reserved⟩ => ⟨books.shelf shelf, fun filling => reserved (filler.step filling)⟩
  · rw [reservationLaw_iff, reservationLaw_iff]
    refine fun ⟨orphans, small⟩ => ⟨books.orphans orphans, fun f hf => ?_⟩
    obtain ⟨g, hg, same⟩ := filler.fill f hf
    exact same ▸ small g hg

/-- A change of the queues, the fault list and the station state that leaves the other tables. -/
theorem Keeps.of_ledger {s t : State} (lawful : s.books.lawful → t.books.lawful) (same : t.books.ledger = s.books.ledger)
    (filler : s.filler.Calm t.filler) : s.Keeps t := by
  simp only [Books.ledger, Prod.mk.injEq] at same
  obtain ⟨invoices, tx, chests, slot, counter⟩ := same
  refine ⟨lawful, ?_, filler.inflight, ?_, ?_, ?_⟩
  · unfold Books.invoiceLaw; rw [invoices]; exact id
  · rw [storeLaw_iff, storeLaw_iff]
    unfold Books.shelfLaw
    rw [chests, slot]
    exact fun ⟨shelf, reserved⟩ => ⟨shelf, fun filling => reserved (filler.step filling)⟩
  · rw [reservationLaw_iff, reservationLaw_iff]
    unfold Books.orphanLaw
    rw [counter, chests]
    refine fun ⟨orphans, small⟩ => ⟨orphans, fun f hf => ?_⟩
    obtain ⟨g, hg, same⟩ := filler.fill f hf
    exact same ▸ small g hg
  · unfold Books.serialLaw; rw [invoices, chests, tx]; exact fun _ => id

section Updates
variable {s t : State}

/-- A change outside the tables and the Fill Sequencer. -/
theorem Keeps.same {u : State} (h : s.Keeps t) (books : u.books = t.books) (filler : u.filler = t.filler) : s.Keeps u :=
  h.trans (.of_sound (books ▸ .refl _) (filler ▸ .refl _))

theorem Keeps.onBooks (h : s.Keeps t) {f : Books → Books} (sound : t.books.Sound (f t.books)) : s.Keeps (t.onBooks f) :=
  h.trans (.of_sound sound (.refl _))

theorem Keeps.setBooks (h : s.Keeps t) {b : Books} (sound : t.books.Sound b) : s.Keeps (t.setBooks b) :=
  h.trans (.of_sound sound (.refl _))

theorem Keeps.setFiller (h : s.Keeps t) {f : Filler} (calm : t.filler.Calm f) : s.Keeps (t.setFiller f) :=
  h.trans (.of_sound (.refl _) calm)

theorem Keeps.setLine (h : s.Keeps t) (l : Line) : s.Keeps (t.setLine l) := h.same rfl rfl

theorem Keeps.setWeigh (h : s.Keeps t) (w : Weigh) : s.Keeps (t.setWeigh w) := h.same rfl rfl

theorem Keeps.setMarker (h : s.Keeps t) (m : Marker) : s.Keeps (t.setMarker m) := h.same rfl rfl

theorem Keeps.setPort (h : s.Keeps t) (p : Port) : s.Keeps (t.setPort p) := h.same rfl rfl

theorem Keeps.setPins (h : s.Keeps t) (p : Pins) : s.Keeps (t.setPins p) := h.same rfl rfl

theorem Keeps.reply (h : s.Keeps t) (st : Status) (data : List Byte) : s.Keeps (t.reply st data) :=
  h.same (t.reply_books st data) (t.reply_filler st data)

theorem Keeps.modifyFill (h : s.Keeps t) {f : Fill → Fill} (same : ∀ x, (f x).reservation = x.reservation) :
    s.Keeps (t.modifyFill f) := by
  refine h.setFiller ⟨id, id, fun x hx => ?_⟩
  obtain ⟨y, hy, rfl⟩ := Option.map_eq_some_iff.1 hx
  exact ⟨y, hy, same y⟩

/-- A step entered: one of a fill only from a fill. -/
theorem Keeps.toStep (h : s.Keeps t) {k : FillStep} (step : k.inFill = true → t.filler.step.inFill = true) :
    s.Keeps (t.toStep k) := h.setFiller ⟨id, step, fun x hx => ⟨x, hx, rfl⟩⟩

theorem Keeps.closeGate (h : s.Keeps t) : s.Keeps t.closeGate := h.setFiller ⟨id, id, fun x hx => ⟨x, hx, rfl⟩⟩

theorem Keeps.goIdle (h : s.Keeps t) : s.Keeps t.goIdle :=
  h.setFiller (f := { t.filler with step := .idle, fill := none, gate := .closed, flow := none, rejectTimer := 0 })
    ⟨id, fun filling => absurd filling Bool.false_ne_true, fun _ none => absurd none.symm (Option.some_ne_none _)⟩

/-- A step outside a fill entered. -/
theorem Keeps.rest (h : s.Keeps t) {k : FillStep} (resting : k.inFill = false) : s.Keeps (t.toStep k) :=
  h.toStep (fun filling => absurd (resting.symm.trans filling) Bool.false_ne_true)

/-- Outside a fill the reserved slot may become free (R139). -/
theorem Keeps.dropReservation (h : s.Keeps t) (resting : t.filler.step.inFill = false) :
    s.Keeps (t.onBooks (·.dropReservation)) := by
  have freed : s.Keeps (t.setBooks { t.books with reservation := none }) := by
    refine h.trans ⟨id, id, id, ?_, ?_, fun _ => id⟩
    · rw [storeLaw_iff, storeLaw_iff]
      rintro ⟨⟨ascending, slots⟩, -⟩
      refine ⟨⟨ascending, (Nat.le_add_right _ _).trans slots⟩, fun filling => ?_⟩
      rw [setBooks_filler, resting] at filling
      cases filling
    · rw [reservationLaw_iff, reservationLaw_iff]
      exact id
  exact freed.setBooks (Books.Sound.noteSlots (.refl _))

/-! ### Settles, and clearing the scale -/

theorem Keeps.withdrawLane (h : s.Keeps t) : s.Keeps t.withdrawLane := Keeps.ite (h.setWeigh _) h

theorem Keeps.askSettle (h : s.Keeps t) (who : Requester) : s.Keeps (t.askSettle who) := Keeps.ite h (h.setWeigh _)

theorem Keeps.enterClear (h : s.Keeps t) : s.Keeps t.enterClear := by
  have clear : s.Keeps (t.toStep .clear) := h.rest rfl
  exact Keeps.ite clear (Keeps.ite clear.goIdle (clear.askSettle _))

/-! ### Rejection and the cut -/

theorem Keeps.queueReport (h : s.Keeps t) (f : Fill) : s.Keeps (t.queueReport f) :=
  Keeps.ite (h.onBooks (Books.Sound.queueOther (.refl _) none rfl)) h

theorem Keeps.chestLost (h : s.Keeps t) (f : Fill) : s.Keeps (t.onBooks (·.chestLost f)) :=
  h.onBooks (Books.Sound.chestLost (.refl _) f)

theorem Keeps.enterReject (h : s.Keeps t) (reason : RejectReason) : s.Keeps (t.enterReject reason) := by
  have rejects : s.Keeps ((t.withdrawLane.toStep .reject).modifyFill (fun f => { f with reason := some reason })) :=
    (h.withdrawLane.rest rfl).modifyFill (fun _ => rfl)
  unfold State.enterReject
  dsimp only
  split
  · exact rejects
  · next f _ =>
    have told := (rejects.onBooks (f := (·.raiseNotice .chestRejected (some f.invoice) none (some reason.num)))
      (Books.Sound.raiseNotice (.refl _) _ _ _ _)).queueReport f
    have ended := (told.dropReservation (by rw [queueReport_filler]; rfl)).chestLost f
    exact ended.setFiller ⟨id, id, fun x hx => ⟨x, hx, rfl⟩⟩

theorem Fill.cut_reservation (f : Fill) (k : FillStep) : (f.cut k).reservation = f.reservation := by
  unfold Fill.cut
  dsimp only
  split
  · rfl
  · rfl
  · split <;> rfl
  all_goals rfl

theorem Keeps.cutFill (h : s.Keeps t) : s.Keeps t.cutFill :=
  h.closeGate.withdrawLane.modifyFill (fun f => Fill.cut_reservation f _)

theorem Keeps.endUndrawn (h : s.Keeps t) (resting : t.filler.step.inFill = false) : s.Keeps t.endUndrawn := by
  unfold State.endUndrawn
  split
  · exact h
  · exact (h.dropReservation resting).chestLost _

theorem Keeps.abortFill (h : s.Keeps t) (reason : RejectReason) : s.Keeps (t.abortFill reason) := by
  have cut := h.cutFill
  exact Keeps.ite (cut.enterReject reason) (Keeps.ite
    (Keeps.endUndrawn (t := t.cutFill.toStep .idle) (cut.rest rfl) rfl).goIdle
    (Keeps.endUndrawn (t := t.cutFill.toStep .clear) (cut.rest rfl) rfl).enterClear)

theorem Keeps.overload (h : s.Keeps t) : s.Keeps t.overload := h.cutFill.enterReject _

/-! ### Acceptance: the reserved slot takes the record (R113, R115, R140) -/

theorem Keeps.startMark (h : s.Keeps t) (who : MarkFor) (n x : Nat) : s.Keeps (t.startMark who n x) :=
  h.same (t.startMark_books who n x) (t.startMark_filler who n x)

end Updates

end State

/-- The reserved slot takes a record. -/
def Books.takeSlot (b : Books) (c : Chest) : Books := ({ b with reservation := none } : Books).putChest c

/-- A chest may join the store: its invoice's record covers it, and its serial is not free. -/
def Books.admits (b : Books) (c : Chest) : Prop :=
  c.covered b.invoices ∧ ∀ r ∈ b.invoices, c.invoice = r.number → ∀ x ∈ r.free, c.key ≠ .packed x

theorem Books.takeSlot_serialLaw {b : Books} {c : Chest} (law : b.serialLaw) (admits : b.admits c) :
    (b.takeSlot c).serialLaw := by
  obtain ⟨records, covered, claims⟩ := law
  obtain ⟨covers, free⟩ := admits
  refine ⟨fun r hr => ?_, fun d hd => ?_, claims⟩
  · obtain ⟨planned, ceiling, high, bounds⟩ := records r hr
    refine ⟨planned, ceiling, high, fun x hx => ?_⟩
    obtain ⟨h₁, h₂, h₃, h₄⟩ := bounds x hx
    refine ⟨h₁, h₂, h₃, fun d hd => ?_⟩
    rcases mem_putBy hd with rfl | hd
    · exact fun invoice => free r hr invoice x hx
    · exact h₄ d hd
  · rcases mem_putBy hd with rfl | hd
    · exact covers
    · exact covered d hd

namespace State

/-- A chest accepted: from a fill, whose slot is reserved, its record goes into the store. -/
theorem keeps_takeSlot {s : State} (filling : s.filler.step.inFill = true) {b : Books} (sound : s.books.Sound b)
    {c : Chest} (small : s.reservationLaw → ∀ k, c.key = .orphan k → k ≤ 255)
    (admits : s.books.invoiceLaw → s.books.serialLaw → b.admits c) :
    s.Keeps ((s.toStep .accept).setBooks (b.takeSlot c)) := by
  refine ⟨sound.kept.lawful, sound.kept.free, id, ?_, ?_, fun i l => ?_⟩
  · rw [storeLaw_iff, storeLaw_iff]
    rintro ⟨shelf, reserved⟩
    obtain ⟨ascending, slots⟩ := sound.shelf shelf
    rw [sound.slot, reserved filling] at slots
    refine ⟨⟨putBy_pairwise ascending, (putBy_length_le _ _ _).trans slots⟩, nofun⟩
  · intro law
    rw [reservationLaw_iff] at law ⊢
    obtain ⟨counter, orphans⟩ := sound.orphans law.1
    refine ⟨⟨counter, fun d hd k hk => ?_⟩, law.2⟩
    rcases mem_putBy hd with rfl | hd
    · exact small ((reservationLaw_iff s).2 law) k hk
    · exact orphans d hd k hk
  · exact Books.takeSlot_serialLaw (sound.serials i l) (admits i l)

theorem recordOf?_some {b : Books} {f : Fill} {r : Invoice} (h : b.recordOf? f = some r) :
    b.invoice? f.invoice = some r := by
  unfold Books.recordOf? Fill.held at h
  cases freed : f.freed <;> simp [freed] at h
  exact h

theorem keeps_orphan {s : State} (filling : s.filler.step.inFill = true) {f : Fill} (fill : s.filler.fill = some f) :
    s.Keeps ((s.toStep .accept).orphan f) := by
  have told : ∀ b : Books, b.Sound (((b.raiseFault .chestOrphan).raiseNotice .orphanPacked (some f.invoice) none
      (some f.reservation)).queueFrame none (.chest f.invoice ⟨0, 0, 0, 0, 0, f.draws⟩)) := fun b =>
    (((Books.Sound.refl b).raiseFault rfl).raiseNotice _ _ _ _).queueOther none rfl
  unfold State.orphan
  dsimp only
  split
  · next present =>
    obtain ⟨r, record⟩ := Option.isSome_iff_exists.1 present
    obtain ⟨hr, number⟩ := Books.invoice?_some (recordOf?_some record)
    have taken := keeps_takeSlot (c := (s.toStep .accept).ownRecord f (.orphan f.reservation) .none) filling
      (.refl s.books) (fun law k hk => by cases hk; exact ((reservationLaw_iff s).1 law).2 f fill)
      (fun _ _ => ⟨⟨r, hr, number, fun _ key => by cases key⟩, fun _ _ _ _ _ key => by cases key⟩)
    exact Keeps.enterClear (taken.setBooks ((Books.Sound.noteSlots (.refl _)).trans (told _)))
  · have dropped := Keeps.dropReservation (t := s.toStep .accept) ((Keeps.refl s).rest rfl) rfl
    exact Keeps.enterClear (dropped.setBooks (told _))

/-- The lowest free serial leaves the free list as the reserved slot takes the record (R113). -/
theorem admits_accepted {b : Books} (invoices : b.invoiceLaw) (serials : b.serialLaw) {n x : Nat} {l : List Nat}
    {r : Invoice} (found : b.invoice? n = some r) (free : r.free = x :: l) {c : Chest} (invoice : c.invoice = n)
    (key : c.key = .packed x) : (b.modifyInvoice n (fun r => { r with free := r.free.erase x })).admits c := by
  obtain ⟨hr, number⟩ := Books.invoice?_some found
  obtain ⟨-, -, -, bounds⟩ := serials.1 r hr
  obtain ⟨low, up, -, -⟩ := bounds x (by simp [free])
  refine ⟨⟨_, List.mem_map.2 ⟨r, hr, rfl⟩, ?_, fun y hy => ?_⟩, fun q hq own y hy => ?_⟩
  · rw [if_pos number]; exact number.trans invoice.symm
  · rw [key] at hy
    cases hy
    rw [if_pos number]
    exact ⟨low, up⟩
  · obtain ⟨p, hp, rfl⟩ := List.mem_map.1 hq
    have numbers : p.number = n := by
      split at own
      · assumption
      · exact own.symm.trans invoice
    obtain rfl : r = p := Option.some.inj (found.symm.trans (numbers ▸ Books.invoice?_of_mem invoices hp))
    rw [if_pos number] at hy
    have distinct : r.free.Nodup := (invoices.2.2 r hr).2.imp Nat.ne_of_lt
    rw [key]
    rintro ⟨rfl⟩
    exact (List.Nodup.not_mem_erase distinct) hy

theorem keeps_fillReserved {s : State} (filling : s.filler.step.inFill = true) {n x : Nat} {r : Invoice} {l : List Nat}
    (found : s.books.invoice? n = some r) (free : r.free = x :: l) {c : Chest} (invoice : c.invoice = n) :
    s.Keeps ((s.toStep .accept).setBooks
      ((s.books.modifyInvoice n (fun r => { r with free := r.free.erase x })).fillReserved c x)) := by
  have erased : s.books.Sound (s.books.modifyInvoice n (fun r => { r with free := r.free.erase x })) := by
    refine Books.Sound.thin (.refl _) ?_
    exact fun _ => ⟨rfl, rfl, rfl, rfl, List.erase_sublist⟩
  have taken := fun c' : Chest => fun (own : c'.invoice = n) (key : c'.key = .packed x) =>
    keeps_takeSlot filling erased (c := c') (fun _ k hk => by rw [key] at hk; cases hk)
      (fun i l => admits_accepted i l found free own key)
  exact (taken { c with key := .packed x, conflict := _ } invoice rfl).setBooks
    (Books.Sound.evalFull (Books.Sound.noteSlots (.refl _)) c.invoice)

theorem keeps_acceptAs {s : State} (filling : s.filler.step.inFill = true) {f : Fill} {r : Invoice} {x : Nat}
    {l : List Nat} (found : s.books.invoice? f.invoice = some r) (free : r.free = x :: l) :
    s.Keeps ((s.toStep .accept).acceptAs f x) := by
  have told : ∀ (b : Books) (report : ChestReport) (net : Nat), b.Sound (((b.queueFrame none (.chest f.invoice report)).raiseNotice
      .chestAccepted (some f.invoice) (some x) (some net)).fillEnded f.invoice) := fun b report net =>
    (((Books.Sound.refl b).queueOther none rfl).raiseNotice _ _ _ _).fillEnded _
  exact Keeps.modifyFill ((keeps_fillReserved filling found free rfl).setBooks (told _ _ _)) (fun _ => by rfl)

end State
end Sys2Proof.Machine
end

section
/-! PROOFS. What the rest of the lane keeps of the laws of the tables: feeding, checks, settles, marks, HALT and OFFLINE
(R104 to R135, R169 to R171; O60). -/

namespace Sys2Proof.Machine

namespace State

variable {s t : State}

theorem Keeps.afterAccept (h : s.Keeps t) (n x : Nat) : s.Keeps (t.afterAccept n x) :=
  Keeps.ite ((h.rest (k := .mark) rfl).startMark _ _ _) (h.onBooks (Books.Sound.queueOther (.refl _) none rfl)).enterClear

theorem Keeps.accept (h : s.Keeps t) (filling : t.filler.step.inFill = true) : s.Keeps t.accept := by
  refine h.trans ?_
  have accepting : t.Keeps (t.toStep .accept) := (Keeps.refl t).rest rfl
  unfold State.accept
  dsimp only
  split
  · exact accepting
  · next f fill =>
    split
    · exact keeps_orphan filling fill
    · next r record =>
      split
      · exact keeps_orphan filling fill
      · split
        · exact accepting.enterReject _
        · next free => exact (keeps_acceptAs filling (recordOf?_some record) free).afterAccept _ _

/-! ### Feeding -/

theorem Keeps.modifyComp (h : s.Keeps t) (k : Nat) (g : CompState → CompState) :
    s.Keeps (t.modifyFill (fun f => f.modifyComp k g)) := h.modifyFill (fun _ => rfl)

theorem Keeps.setGate (h : s.Keeps t) (k : Nat) (g : Gate) (isFine : Bool) (net : Int) :
    s.Keeps (t.setGate k g isFine net) :=
  (h.setFiller (f := { t.filler with gate := g, flow := some (flowAt t.filler.gate.isOpen t.filler.flow net) })
    ⟨id, id, fun x hx => ⟨x, hx, rfl⟩⟩).modifyComp k _

theorem Keeps.enterSettle (h : s.Keeps t) (filling : t.filler.step.inFill = true) (k : Nat) : s.Keeps (t.enterSettle k) :=
  (h.toStep (fun _ => filling)).askSettle _

theorem Keeps.feedGate (h : s.Keeps t) (filling : t.filler.step.inFill = true) (k : Nat) : s.Keeps (t.feedGate k) := by
  unfold State.feedGate
  split
  · exact Keeps.ite (h.enterSettle filling k) (Keeps.ite (h.setGate _ _ _ _) (h.setGate _ _ _ _))
  · exact h

theorem Keeps.enterFeed (h : s.Keeps t) (filling : t.filler.step.inFill = true) (k : Nat) : s.Keeps (t.enterFeed k) :=
  Keeps.feedGate ((h.toStep (k := .feed k) (fun _ => filling)).modifyComp k _) rfl k

theorem Keeps.endTopup (h : s.Keeps t) (filling : t.filler.step.inFill = true) (how : TopupEnd) :
    s.Keeps (t.endTopup how) :=
  ((h.toStep (k := .topup) (fun _ => filling)).modifyFill (fun _ => by rfl)).askSettle _

theorem Keeps.topupGate (h : s.Keeps t) (filling : t.filler.step.inFill = true) : s.Keeps t.topupGate := by
  unfold State.topupGate
  split
  · split
    · exact Keeps.ite (h.endTopup filling _) (h.setGate _ _ _ _)
    · exact h
  · exact h

theorem Keeps.enterTopup (h : s.Keeps t) (filling : t.filler.step.inFill = true) (net : Int) : s.Keeps (t.enterTopup net) := by
  have chosen : s.Keeps ((t.toStep .topup).modifyFill (fun f => { f with
      topupDone := true, netBefore := some net, topupComp := t.books.chooseTopup 1 f.recipe none, topupEnd := none })) :=
    (h.toStep (fun _ => filling)).modifyFill (fun _ => rfl)
  exact Keeps.ite (chosen.topupGate rfl) (chosen.enterReject _)

theorem Keeps.check (h : s.Keeps t) (filling : t.filler.step.inFill = true) (net : Int) : s.Keeps (t.check net) := by
  have judged : s.Keeps ((t.toStep .check).modifyFill (fun f => { f with net := some net })) :=
    (h.toStep (fun _ => filling)).modifyFill (fun _ => rfl)
  unfold State.check
  dsimp only
  split
  · exact judged
  · exact Keeps.ite (judged.enterReject _) (Keeps.ite (judged.accept rfl)
      (Keeps.ite (judged.enterReject _) (judged.enterTopup rfl net)))

/-! ### Settles handed out -/

theorem Keeps.enterTare (h : s.Keeps t) (filling : t.filler.step.inFill = true) : s.Keeps t.enterTare :=
  (h.toStep (fun _ => filling)).askSettle _

theorem Keeps.tareSettled (h : s.Keeps t) (filling : t.filler.step.inFill = true) (r : Reading) :
    s.Keeps (t.tareSettled r) := by
  unfold State.tareSettled
  split
  · exact h
  · refine Keeps.ite (h.enterReject _) (Keeps.enterFeed (h.modifyFill ?_) filling 1)
    exact fun _ => rfl

theorem keeps_adapt (s : State) (n : Nat) (c : CompState) (net : Int) : s.Keeps (s.adapt n c net) := by
  have inflight := (s.flows_adapt n c net).inflight
  unfold adapt at inflight ⊢
  split
  · next judged =>
    rw [if_pos judged] at inflight
    dsimp only at inflight ⊢
    split
    · next near =>
      rw [if_pos near] at inflight
      exact (Keeps.refl s).setFiller ⟨inflight, id, fun x hx => ⟨x, hx, rfl⟩⟩
    · exact (Keeps.refl s).onBooks (Books.Sound.raiseNotice (.refl _) _ _ _ _)
  · exact .refl s

theorem adapt_step (s : State) (n : Nat) (c : CompState) (net : Int) : (s.adapt n c net).filler.step = s.filler.step := by
  unfold adapt
  split
  · dsimp only
    split <;> rfl
  · rfl

theorem Keeps.componentSettled (h : s.Keeps t) (filling : t.filler.step.inFill = true) (k : Nat) (r : Reading) :
    s.Keeps (t.componentSettled k r) := by
  unfold State.componentSettled
  split
  · exact h
  · split
    · exact h
    · next c _ =>
      have settled := fun (n : Nat) (net : Int) (g : Fill → Fill) (same : ∀ x, (g x).reservation = x.reservation) =>
        (h.modifyFill same).trans (keeps_adapt (t.modifyFill g) n c net)
      dsimp only
      split
      · exact (settled _ _ _ (by exact fun _ => rfl)).enterFeed (by rw [adapt_step]; exact filling) _
      · exact (settled _ _ _ (by exact fun _ => rfl)).check (by rw [adapt_step]; exact filling) _

theorem Keeps.topupSettled (h : s.Keeps t) (filling : t.filler.step.inFill = true) (r : Reading) :
    s.Keeps (t.topupSettled r) := by
  unfold State.topupSettled
  split
  · exact h
  · refine Keeps.check (h.modifyFill fun f => ?_) filling _
    split <;> rfl

/-! ### Updates, CHEST and HOLD -/

theorem Keeps.followNet (h : s.Keeps t) : s.Keeps t.followNet := by
  unfold State.followNet
  split
  · exact h.modifyFill (fun _ => by rfl)
  · exact h

theorem Keeps.validUpdate (h : s.Keeps t) (r : Reading) : s.Keeps (t.validUpdate r) := by
  have followed := h.followNet
  unfold State.validUpdate
  refine Keeps.ite followed ?_
  split
  · next step => exact Keeps.ite followed.overload (followed.feedGate (by rw [step]; rfl) _)
  · next step =>
    exact Keeps.ite followed (Keeps.ite followed.overload (followed.topupGate (by rw [step]; rfl)))
  all_goals exact followed

theorem Keeps.readingUpdate (h : s.Keeps t) : s.Keeps t.readingUpdate := by
  unfold State.readingUpdate
  split
  · exact h.validUpdate _
  · exact h.closeGate

theorem Keeps.chestEdgeAt (h : s.Keeps t) (level : Bool) : s.Keeps (t.chestEdgeAt level) := by
  have seen : s.Keeps (t.setFiller { t.filler with remembered := level }) :=
    h.setFiller ⟨id, id, fun x hx => ⟨x, hx, rfl⟩⟩
  have lost := seen.cutFill.enterReject .chestLost
  unfold State.chestEdgeAt
  refine Keeps.ite ?_ ?_
  · unfold State.chestRises
    split
    · next step => exact seen.enterTare (by rw [step]; rfl)
    · exact Keeps.ite (seen.setWeigh _).goIdle seen
    all_goals exact seen
  · unfold State.chestFalls
    split
    · exact lost
    · exact lost
    · exact lost
    · exact lost
    · exact seen.enterClear
    all_goals exact seen

theorem Keeps.restart (h : s.Keeps t) : s.Keeps t.restart := by
  have unwatched : s.Keeps { t with filler := { t.filler with flow := none } } :=
    h.setFiller ⟨id, id, fun x hx => ⟨x, hx, rfl⟩⟩
  unfold State.restart
  split
  · exact h.askSettle _
  · exact h.askSettle _
  · next step => exact unwatched.feedGate (by dsimp only; rw [step]; rfl) _
  · next step =>
    refine Keeps.ite (h.askSettle _) (Keeps.topupGate (unwatched.modifyFill ?_) ?_)
    · exact fun _ => rfl
    · show t.filler.step.inFill = true
      rw [step]; rfl
  · exact h.setFiller ⟨id, id, fun x hx => ⟨x, hx, rfl⟩⟩
  · exact h.enterClear
  all_goals exact h

/-! ### Marks -/

theorem Keeps.endMark (h : s.Keeps t) (j : Job) : s.Keeps (t.endMark j) := by
  have done : s.Keeps ((t.setMarker t.marker.stop).onBooks (·.markDone j.invoice j.serial j.defect)) :=
    (h.setMarker _).onBooks (Books.Sound.markDone (.refl _) _ _ _)
  unfold State.endMark
  dsimp only
  split
  · exact Keeps.ite done.enterClear done
  · exact done

theorem Keeps.haltMark (h : s.Keeps t) : s.Keeps t.haltMark := by
  unfold State.haltMark
  split
  · exact h
  · exact (h.setMarker _).endMark _

theorem Keeps.raiseFault (h : s.Keeps t) {c : FaultCode} (mild : c.severe = false) :
    s.Keeps (t.onBooks (·.raiseFault c)) := h.onBooks (Books.Sound.raiseFault (.refl _) mild)

theorem Keeps.clearCause (h : s.Keeps t) (c : FaultCode) : s.Keeps (t.onBooks (·.clearCause c)) :=
  h.onBooks (Books.Sound.clearCause (.refl _) c)

theorem Keeps.pulse (h : s.Keeps t) (j : Job) : s.Keeps (t.pulse j) := by
  unfold State.pulse
  split
  · exact h
  · exact (h.setMarker _).raiseFault rfl
  · exact (h.setMarker _).raiseFault rfl
  · exact Keeps.ite ((h.setMarker _).setMarker _) ((h.setMarker _).endMark _)

theorem Keeps.shiftEnds (h : s.Keeps t) (hd : Head) : s.Keeps (t.shiftEnds hd) := by
  unfold State.shiftEnds
  split
  · exact h
  · exact Keeps.ite ((h.setMarker _).setMarker _)
      (Keeps.ite ((h.setMarker _).setMarker _) ((h.setMarker _).endMark _))

theorem Keeps.shiftDone (h : s.Keeps t) (hd : Head) (j : Job) (dataIn : BitVec 32) :
    s.Keeps (t.shiftDone hd j dataIn) := by
  unfold State.shiftDone
  refine Keeps.shiftEnds ?_ hd
  split
  · exact Keeps.ite ((h.setMarker _).raiseFault rfl) ((h.setMarker _).clearCause _)
  · exact h

/-! ### Settles completed, and no flow -/

theorem Keeps.captureSettled (h : s.Keeps t) (r : Reading) : s.Keeps (t.captureSettled r) :=
  (Keeps.ite (h.setWeigh _) (h.raiseFault rfl)).goIdle

theorem Keeps.zeroSettled (h : s.Keeps t) (r : Reading) : s.Keeps (t.zeroSettled r) :=
  Keeps.ite ((h.setWeigh _).reply _ _) ((h.raiseFault rfl).reply _ _)

theorem Keeps.fillSettled (h : s.Keeps t) (r : Reading) : s.Keeps (t.fillSettled r) := by
  unfold State.fillSettled
  split
  · next step => exact h.tareSettled (by rw [step]; rfl) r
  · next step => exact h.componentSettled (by rw [step]; rfl) _ r
  · next step => exact h.topupSettled (by rw [step]; rfl) r
  all_goals exact h

theorem Keeps.completeSettle (h : s.Keeps t) : s.Keeps t.completeSettle := by
  unfold State.completeSettle
  split
  · next q r _ _ =>
    have settled : s.Keeps (t.withdrawRequest.onBooks (·.clearCause .settleSlow)) := (h.setWeigh _).clearCause _
    unfold State.handSettled
    split
    · exact settled.fillSettled r
    · exact settled.captureSettled r
    · exact settled.zeroSettled r
  · exact h

theorem Keeps.markShort (h : s.Keeps t) (k : Nat) : s.Keeps (t.markShort k) := by
  have short : s.Keeps (t.modifyFill (fun f => f.modifyComp k (fun c => { c with short := true }))) := h.modifyComp k _
  unfold State.markShort
  dsimp only
  split
  · exact short.onBooks (Books.Sound.noFlowBin (.refl _) _)
  · exact short

theorem Keeps.findNoFlow (h : s.Keeps t) : s.Keeps t.findNoFlow := by
  have closed := h.closeGate
  have filling : ∀ k, t.filler.step.inFill = true → (t.closeGate.markShort k).filler.step.inFill = true := fun k l => by
    rw [markShort_step]; exact l
  unfold State.findNoFlow
  split
  · next step => exact (closed.markShort _).enterSettle (filling _ (by rw [step]; rfl)) _
  · next step =>
    split
    · exact (closed.markShort _).endTopup (filling _ (by rw [step]; rfl)) _
    · exact closed
  all_goals exact closed

/-! ### The start of a fill (R102, R139) -/

/-- A reservation made now finds a slot, and a number within 255 (R139). -/
theorem reservable_some {b : Books} {k : Nat} (h : b.reservable = some k) : 1 ≤ b.freeSlots ∧ k ≤ 255 := by
  have small : ∀ fuel j, b.reservationFrom fuel j = some k → k ≤ 255 := by
    intro fuel
    induction fuel with
    | zero => intro j h; cases h
    | succ fuel ih =>
      intro j h
      unfold Books.reservationFrom at h
      split at h
      · exact ih _ h
      · cases h
        unfold nextReservation
        split <;> omega
  unfold Books.reservable at h
  split at h
  · next free => exact ⟨free, small _ _ h⟩
  · cases h

theorem keeps_armFill {s : State} {k : Nat} (reservable : s.books.reservable = some k) (r : Invoice) :
    s.Keeps (s.armFill r k) := by
  obtain ⟨free, small⟩ := reservable_some reservable
  have armed : s.Keeps { s with
      books := s.books.reserve k, filler := { s.filler with step := .armed, fill := some (s.books.newFill r k) } } := by
    refine ⟨id, id, id, ?_, ?_, fun _ => id⟩
    · rw [storeLaw_iff, storeLaw_iff]
      rintro ⟨⟨ascending, -⟩, -⟩
      refine ⟨⟨ascending, ?_⟩, fun _ => rfl⟩
      show s.books.chests.length + 1 ≤ 256
      unfold Books.freeSlots at free
      omega
    · rw [reservationLaw_iff, reservationLaw_iff]
      rintro ⟨⟨-, orphans⟩, -⟩
      exact ⟨⟨small, orphans⟩, fun f hf => by cases hf; exact small⟩
  exact ((armed.onBooks (f := (·.claimCheck r.number)) (Books.Sound.claimCheck (.refl _) _)).toStep (k := .armed)
    (fun _ => rfl))

/-! ### The station state, HALT, OFFLINE and ONLINE -/

/-- Any raise leaves the tables but the fault list, which stays in order. -/
theorem Keeps.raiseAny (h : s.Keeps t) (c : FaultCode) : s.Keeps (t.onBooks (·.raiseFault c)) :=
  h.trans (.of_ledger (fun ⟨queue, notices, faults⟩ =>
    ⟨queue, notices, putBy_pairwise (key := fun e : FaultEntry => e.code.num) faults⟩) rfl (.refl _))

theorem Keeps.setStation (h : s.Keeps t) (st : StationState) : s.Keeps (t.setStation st) :=
  h.trans (.of_ledger id rfl (.refl _))

theorem Keeps.haltFill (h : s.Keeps t) : s.Keeps t.haltFill := by
  have aborted := h.abortFill .halted
  unfold State.haltFill
  split
  · exact aborted
  · exact aborted
  · exact aborted
  · exact aborted
  · exact aborted
  · exact aborted
  · exact Keeps.ite h h.withdrawLane.goIdle
  all_goals exact h

theorem Keeps.enterHalt (h : s.Keeps t) : s.Keeps t.enterHalt :=
  ((h.setStation .halt).haltFill.haltMark.onBooks (Books.Sound.removeClaims (.refl _) _)).withdrawLane

theorem Keeps.raiseHalting (h : s.Keeps t) (c : FaultCode) : s.Keeps (t.raiseHalting c) :=
  Keeps.ite (h.raiseAny c).enterHalt (h.raiseAny c)

theorem Keeps.offlineFill (h : s.Keeps t) : s.Keeps t.offlineFill := by
  unfold State.offlineFill
  split
  · exact h.goIdle
  · split
    · have cut : s.Keeps (t.cutFill.toStep .idle) := h.cutFill.rest rfl
      dsimp only
      split
      · exact cut.goIdle
      · next f _ =>
        refine Keeps.goIdle (Keeps.dropReservation (Keeps.chestLost (f := f) ?_) ?_)
        · exact Keeps.ite ((cut.onBooks (Books.Sound.raiseNotice (.refl _) _ _ _ _)).queueReport f) cut
        · rw [onBooks_filler]
          split
          · rw [queueReport_filler]; rfl
          · rfl
    · next resting => exact (h.dropReservation (by simpa using resting)).goIdle

theorem Keeps.raiseOffline (h : s.Keeps t) (c : FaultCode) : s.Keeps (t.raiseOffline c) := by
  refine Keeps.ite (h.raiseAny c) ?_
  have rested := (((h.raiseAny c).setStation .offline).offlineFill.setMarker
    (((t.onBooks (·.raiseFault c)).setStation .offline).offlineFill.marker.cutShift.stop))
  exact Keeps.ite ((rested.setWeigh _).reply _ _) (rested.setWeigh _)

theorem Keeps.raiseSaturation (h : s.Keeps t) : s.Keeps t.raiseSaturation :=
  Keeps.ite ((h.setWeigh _).raiseHalting _) h

theorem Keeps.goOnline (h : s.Keeps t) : s.Keeps t.goOnline := by
  have online : s.Keeps ((t.setBooks { t.books with station := .online, onlineWait := false }).onBooks
      (·.raiseNotice .online none none none)) :=
    (h.trans (.of_ledger (t := t.setBooks { t.books with station := .online, onlineWait := false }) id rfl
      (.refl _))).onBooks (Books.Sound.raiseNotice (.refl _) _ _ _ _)
  exact (Keeps.ite (online.raiseHalting _) online).raiseSaturation

theorem Keeps.returnOnline (h : s.Keeps t) : s.Keeps t.returnOnline := Keeps.ite (h.setStation .online) h

end State
end Sys2Proof.Machine
end

section
/-! PROOFS. What the commands of the port keep of the laws of the tables (R35, R48, R49, R102, R143, R168, R175, R176; O60). -/

namespace Sys2Proof.Machine

namespace State

variable {s t : State}

/-! ### Reset and configuration (R175, R176) -/

/-- The empty tables meet every law, whatever stood before. -/
theorem keeps_enterReset (s : State) : s.Keeps s.enterReset := by
  refine ⟨fun _ => ⟨⟨Nat.zero_le _, Nat.zero_le _⟩, Nat.zero_le _, .nil⟩, fun _ => ⟨Nat.zero_le _, .nil, ?_⟩, fun _ => ?_,
    fun _ => ⟨.nil, Nat.zero_le _, ?_⟩, fun _ => ⟨Nat.zero_le _, ?_, ?_⟩, fun _ _ => ⟨?_, ?_, ?_⟩⟩
  · exact fun r hr => absurd hr List.not_mem_nil
  · intro v hv
    have zero : v = 0 := by simpa [State.enterReset, State.reset, Filler.reset] using hv
    omega
  · exact fun filling => absurd filling Bool.false_ne_true
  · exact fun f hf => absurd hf.symm (Option.some_ne_none f)
  · exact fun c hc => absurd hc List.not_mem_nil
  · exact fun r hr => absurd hr List.not_mem_nil
  · exact fun c hc => absurd hc List.not_mem_nil
  · exact fun e he => absurd he List.not_mem_nil

theorem Keeps.leaveReset (h : s.Keeps t) (k : Straps) : s.Keeps (t.leaveReset k) := by
  have read : s.Keeps { t with
      inReset := false, books := { t.books with straps := k }, filler := { t.filler with remembered := t.pins.chest },
      port := { t.port with busy := false } } :=
    h.trans (.of_ledger id rfl ⟨id, id, fun x hx => ⟨x, hx, rfl⟩⟩)
  exact Keeps.ite (read.raiseOffline _) read

/-- A valid configuration's initial in-flight values lie in 0 to 300 (R176). -/
theorem inflightAt_le {p : List Byte} (valid : configValid p = true) {i : Nat}
    (used : feederAt p i ∈ (feedersOf p).toList) : inflightAt p i ≤ 300 := by
  unfold inflightAt
  cases feeder : feederAt p i with
  | none => exact Nat.zero_le _
  | some f =>
    have all : ((feedersOf p).toList.filterMap id).all Feeder.valid = true := by
      unfold configValid at valid
      simp only [Bool.and_eq_true] at valid
      exact valid.1.2
    have one := List.all_eq_true.1 all f (List.mem_filterMap.2 ⟨some f, feeder ▸ used, rfl⟩)
    simp only [Feeder.valid, Bool.and_eq_true, decide_eq_true_eq] at one
    exact one.2

theorem Keeps.configureBody (h : s.Keeps t) (p : List Byte) : s.Keeps (t.configureBody p) := by
  unfold State.configureBody
  split
  · next valid =>
    have calm : t.filler.Calm (t.configureWith p).filler := by
      refine ⟨fun _ v hv => ?_, id, fun x hx => ⟨x, hx, rfl⟩⟩
      have one : v = inflightAt p 16 ∨ v = inflightAt p 21 ∨ v = inflightAt p 26 ∨ v = inflightAt p 31 := by
        simpa [State.configureWith] using hv
      rcases one with rfl | rfl | rfl | rfl <;> exact inflightAt_le valid (by simp [feedersOf])
    exact (h.trans (.of_ledger (t := t.configureWith p) id rfl calm)).reply _ _
  · exact h.reply _ _

theorem Keeps.goOnlineBody (h : s.Keeps t) : s.Keeps t.goOnlineBody := by
  have waits : s.Keeps (t.setBooks { t.books with onlineWait := true }) := h.trans (.of_ledger id rfl (.refl _))
  exact Keeps.ite (h.reply _ _) (Keeps.ite (h.goOnline.reply _ _) (waits.reply _ _))

/-! ### Commands of the invoices and the chests -/

theorem Keeps.openBody (h : s.Keeps t) (p : List Byte) : s.Keeps (t.openBody p) := by
  unfold State.openBody
  split
  · exact h.reply _ _
  · next taken => exact (h.onBooks (f := (·.openInvoice p)) (Books.sound_openInvoice taken)).reply _ _

theorem Keeps.abandonBody (h : s.Keeps t) (n : Nat) : s.Keeps (t.abandonBody n) := by
  unfold State.abandonBody
  split
  · exact h.reply _ _
  · exact (h.onBooks (Books.Sound.abandon (.refl _) n)).reply _ _

theorem Keeps.closeBody (h : s.Keeps t) (n : Nat) : s.Keeps (t.closeBody n) := by
  unfold State.closeBody
  split
  · exact h.reply _ _
  · exact (h.onBooks (Books.Sound.callClose (.refl _) _ n)).reply _ _

theorem Keeps.releaseBody (h : s.Keeps t) (n : Nat) : s.Keeps (t.releaseBody n) := by
  have released := h.onBooks (f := (·.release n)) (Books.Sound.release (.refl _) n)
  exact Keeps.ite ((released.modifyFill (f := (·.loseRecord n)) (fun _ => rfl)).reply _ _) (h.reply _ _)

/-- START CHEST is taken with the reservation that can be made (R102). -/
theorem startCheck_ok {n k : Nat} {r : Invoice} (taken : s.startCheck n = .ok (r, k)) : s.books.reservable = some k := by
  unfold startCheck at taken
  split at taken
  · cases taken
  · split at taken
    · cases taken
    · split at taken
      · cases taken
      · split at taken
        · cases taken
        · next reservable =>
          split at taken
          · cases taken
          · split at taken
            · cases taken
            · cases taken; exact reservable

theorem Keeps.startBody (h : s.Keeps t) (n : Nat) : s.Keeps (t.startBody n) := by
  unfold State.startBody
  split
  · exact h.reply _ _
  · next r k taken => exact (h.trans (keeps_armFill (startCheck_ok taken) r)).reply _ _

theorem Keeps.abortBody (h : s.Keeps t) : s.Keeps t.abortBody := Keeps.ite ((h.abortFill _).reply _ _) (h.reply _ _)

theorem Keeps.voidBody (h : s.Keeps t) (n serial : Nat) : s.Keeps (t.voidBody n serial) := by
  unfold State.voidBody
  split
  · exact h.reply _ _
  · next taken => exact (h.onBooks (f := (·.voidChest n serial)) (Books.sound_voidChest taken)).reply _ _

theorem Keeps.sampleBody (h : s.Keeps t) (n serial weight : Nat) : s.Keeps (t.sampleBody n serial weight) := by
  unfold State.sampleBody
  split
  · exact h.reply _ _
  · exact (h.onBooks (Books.Sound.recordSample (.refl _) n serial weight)).reply _ _

theorem Keeps.remarkBody (h : s.Keeps t) (n serial : Nat) : s.Keeps (t.remarkBody n serial) := by
  unfold State.remarkBody
  split
  · exact h.reply _ _
  · exact (h.startMark _ _ _).reply _ _

theorem Keeps.binBody (h : s.Keeps t) (n action : Nat) (batch quantity : Bin → Nat) :
    s.Keeps (t.binBody n action batch quantity) :=
  Keeps.ite ((h.onBooks (Books.Sound.queueOther (.refl _) none rfl)).reply _ _) (h.reply _ _)

theorem Keeps.zeroBody (h : s.Keeps t) : s.Keeps t.zeroBody := Keeps.ite (h.reply _ _) (h.setWeigh _)

/-! ### Reads and acknowledgement -/

theorem Keeps.replySpending (h : s.Keeps t) (data : List Byte) : s.Keeps (t.replySpending data) :=
  (h.reply .ok data).same rfl rfl

theorem Keeps.readInvoiceBody (h : s.Keeps t) (n : Nat) : s.Keeps (t.readInvoiceBody n) := by
  unfold State.readInvoiceBody
  split
  · exact h.reply _ _
  · exact h.replySpending _

theorem Keeps.readChestBody (h : s.Keeps t) (n selector k : Nat) : s.Keeps (t.readChestBody n selector k) := by
  unfold State.readChestBody
  refine Keeps.ite (h.reply _ _) (Keeps.ite (h.reply _ _) ?_)
  split
  · exact h.reply _ _
  · exact h.reply _ _

theorem Keeps.readLotBody (h : s.Keeps t) (n part line : Nat) : s.Keeps (t.readLotBody n part line) := by
  unfold State.readLotBody
  refine Keeps.ite (h.reply _ _) ?_
  split
  · exact h.reply _ _
  · unfold State.readSheet
    split
    · exact h.replySpending _
    · exact h.reply _ _
    · exact h.reply _ _
    · refine Keeps.ite (h.reply _ _) ?_
      split
      · exact h.reply _ _
      · exact h.reply _ _
    · exact h.reply _ _

theorem Keeps.readNoticeBody (h : s.Keeps t) : s.Keeps t.readNoticeBody := by
  unfold State.readNoticeBody
  split
  · exact h.replySpending _
  · exact (h.onBooks (Books.Sound.takeNotice (.refl _))).replySpending _

theorem Keeps.readFaultBody (h : s.Keeps t) (k : Nat) : s.Keeps (t.readFaultBody k) := by
  unfold State.readFaultBody
  split
  · exact h.reply _ _
  · exact h.replySpending _

theorem Keeps.ackBody (h : s.Keeps t) (k : Nat) : s.Keeps (t.ackBody k) := by
  unfold State.ackBody
  split
  · exact h.reply _ _
  · next e _ =>
    split
    · exact h.reply _ _
    · have dropped : s.Keeps (t.onBooks (·.dropFault e.code)) :=
        h.trans (.of_ledger (fun ⟨queue, notices, faults⟩ => ⟨queue, notices, faults.filter _⟩) rfl (.refl _))
      exact (Keeps.ite dropped.returnOnline dropped).reply _ _

theorem Keeps.readStatusBody (h : s.Keeps t) (part n : Nat) : s.Keeps (t.readStatusBody part n) := by
  unfold State.readStatusBody
  split
  · exact h.reply _ _
  · exact h.reply _ _
  · exact h.replySpending _
  · exact h.replySpending _
  · refine Keeps.ite (h.reply _ _) ?_
    split
    · exact h.reply _ _
    · exact h.reply _ _
  · exact h.reply _ _

/-- A command transaction keeps what its body keeps (R172 to R174). -/
theorem keeps_hostCommand (s : State) (code : Byte) (p : Params) (data : State → List Byte) {body : State → State}
    (run : ∀ t, s.Keeps t → s.Keeps (body t)) : s.Keeps (s.hostCommand code p data body) :=
  s.hostCommand_cases code p data body (fun q => (Keeps.refl s).setPort q)
    (fun _ _ => run _ ((Keeps.refl s).setPort _))

end State
end Sys2Proof.Machine
end

section
/-! PROOFS. Every event row, every frame heard and every timed row keeps the laws of the tables, and with them a step of the
machine (O60). -/

namespace Sys2Proof.Machine

namespace State

variable {s t : State}

/-! ### The line, and the sender's part (R8 to R13, R20) -/

theorem Keeps.becomeIdle (h : s.Keeps t) : s.Keeps t.becomeIdle := by
  have idle := (h.setLine t.line.atIdle).onBooks (f := (·.heardIdle t.line.framingLost))
    (Books.Sound.heardIdle (.refl _) _)
  exact Keeps.ite idle.goOnline idle

theorem Keeps.loseArbitration (h : s.Keeps t) (char : Nat) (bit : BitRead) : s.Keeps (t.loseArbitration char bit) := by
  have lost := (h.setLine { t.line.pass (t.readBack char bit) with
      role := .receiver (char < 3), assembler := lostAssembler t.sentChars char bit.place }).onBooks
    (f := (·.attemptLost t.filling)) (Books.sound_attemptLost _ _)
  exact Keeps.ite lost (lost.raiseOffline _)

theorem Keeps.abandonFrame (h : s.Keeps t) (char : Nat) (bit : BitRead) : s.Keeps (t.abandonFrame char bit) :=
  have halted := (h.setLine ((t.line.pass (t.readBack char bit)).frameOver .none)).raiseHalting .lineDrive
  halted.onBooks (f := fun b => b.attemptEnds _ false false) (Books.sound_attemptEnds _ _ _ _)

/-! ### Frames that other stations send (R14 to R19) -/

theorem Keeps.filterOut (h : s.Keeps t) (sender : Nat) (l : Line) : s.Keeps (t.filterOut sender l) :=
  Keeps.ite ((h.setLine l).onBooks (Books.Sound.setRepeat (.refl _) _ _)) (h.setLine l)

theorem Keeps.headerEnds (h : s.Keeps t) (samples : List Bool) (cs : List RxChar) : s.Keeps (t.headerEnds samples cs) := by
  unfold State.headerEnds
  split
  · exact h.filterOut _ _
  · exact Keeps.ite (h.setLine _) h
  all_goals exact h

theorem Keeps.nakFrame (h : s.Keeps t) (heard : List Bool) (x : SlotSamples) : s.Keeps (t.nakFrame heard x) :=
  Keeps.ite ((h.setLine _).onBooks (Books.Sound.staleRequest (.refl _))) (h.setLine _)

/-- A frame in range is handed to its owner, and the repeat memory of its sender follows (R19, R32). -/
theorem Keeps.takeFrame (h : s.Keeps t) (q : Sender) (f : Frame) {hand : Books → Books}
    (sound : t.books.Sound (hand t.books)) : s.Keeps (t.takeFrame q f hand) :=
  (h.setLine _).onBooks (Books.Sound.remember (.ite sound (.refl _)) _ _)

/-- What its owner makes of a frame in range decides what a whole frame does. -/
theorem Keeps.receive (h : s.Keeps t) (q : Sender) {f : Frame} {hand : Books → Books}
    (sound : f.inRange q.number.toNat = true → t.books.Sound (hand t.books)) : s.Keeps (t.receive q f hand) := by
  unfold State.receive
  refine Keeps.ite h (Keeps.ite (h.setLine _) (Keeps.ite h ?_))
  split
  · next range => exact h.takeFrame q f (sound range)
  · exact h.nakFrame _ _

theorem Keeps.receiveReport (h : s.Keeps t) (q : Sender) (n : Nat) (r : ChestReport) : s.Keeps (t.receiveReport q n r) := by
  refine Keeps.ite (h.receive q fun range => ?_) (Keeps.ite (h.setLine _) h)
  have body := Frame.bodyInRange_of_inRange range
  simp only [Frame.bodyInRange, ChestReport.inRange, Bool.and_eq_true, inside_iff] at body
  exact Books.sound_heardReport _ _ _ _ (by omega)

theorem keeps_receiveTally (s : State) (q : Sender) (n : Nat) (x : Tally) (fill : Option Nat) :
    s.Keeps (s.receive q (.tally n x) (·.heardTally fill q.number.toNat n x)) :=
  (Keeps.refl s).receive q fun range => by
    have body := Frame.bodyInRange_of_inRange range
    simp only [Frame.bodyInRange, Bool.and_eq_true, inside_iff] at body
    exact Books.Sound.heardTally (.refl _) _ _ _ (by omega)

theorem keeps_receiveClaim (s : State) (q : Sender) (n planned first count : Nat) (fill : Option Nat) :
    s.Keeps (s.receive q (.claim n planned first count) (·.heardClaim fill q.number.toNat n planned first count)) :=
  (Keeps.refl s).receive q fun range =>
    Books.Sound.heardClaim (.refl _) _ _ _ _ (Frame.claimLaw_claim.1 (Frame.claimLaw_of_inRange range)).2

/-! ### The field inputs (R87, R98, R103, R121) -/

theorem Keeps.endZeroing (h : s.Keeps t) : s.Keeps t.endZeroing := Keeps.ite ((h.setWeigh _).reply _ _) h

theorem Keeps.chestChanges (h : s.Keeps t) (level : Bool) : s.Keeps (t.chestChanges level) := by
  have seen : s.Keeps (t.setPins { t.pins with chest := level }) := h.setPins _
  have ended := Keeps.ite (c := level = true) seen.endZeroing seen
  exact Keeps.ite ended (ended.chestEdgeAt level)

theorem Keeps.holdBegins (h : s.Keeps t) : s.Keeps t.holdBegins := by
  have shut : s.Keeps ((t.setPins { t.pins with hold := true }).setFiller t.filler.held) :=
    (h.setPins _).setFiller ⟨id, id, fun x hx => ⟨x, hx, rfl⟩⟩
  exact (shut.setMarker _).withdrawLane

theorem Keeps.holdEnds (h : s.Keeps t) : s.Keeps t.holdEnds := by
  have ended : s.Keeps (t.setPins { t.pins with hold := false }) := h.setPins _
  exact Keeps.ite ended (Keeps.ite ended (ended.chestEdgeAt _)).restart

/-! ### The passing of time, and the timed moments -/

theorem Keeps.elapse (h : s.Keeps t) (d : Nat) : s.Keeps (t.elapse d) :=
  h.trans (.of_ledger id rfl ⟨id, id, fun x hx => ⟨x, hx, rfl⟩⟩)

theorem Keeps.atMoment (h : s.Keeps t) (wait : Option Nat) {f : State → State} (run : ∀ u, s.Keeps u → s.Keeps (f u)) :
    s.Keeps (t.atMoment wait f) := by
  unfold State.atMoment
  split
  · exact h
  · exact run _ (h.elapse _)

theorem Keeps.goodSample (h : s.Keeps t) : s.Keeps t.goodSample := by
  unfold State.goodSample
  split
  · next sc x _ _ =>
    have updated := ((h.setWeigh (t.weigh.takeSample sc x.count t.books.time)).onBooks
      (f := (·.sampleSeen (saturatedCount x.count))) (Books.Sound.sampleSeen (.refl _) _)).readingUpdate
    exact Keeps.ite updated.raiseSaturation updated
  · exact h

theorem Keeps.loseSamples (h : s.Keeps t) : s.Keeps t.loseSamples :=
  Keeps.ite ((h.setWeigh t.weigh.lose).raiseHalting _) (h.setWeigh _)

theorem Keeps.settleSlow (h : s.Keeps t) : s.Keeps t.settleSlow := (h.setWeigh _).raiseFault rfl

/-! ### One row, and one step -/

/-- Every command, event and frame keeps the laws of the tables. -/
theorem keeps_exec (i : Instr) (s : State) : ∃ t, exec i s = .next t ∧ s.Keeps t := by
  have self := Keeps.refl s
  have command := keeps_hostCommand s
  cases i with
  | configure p => exact ⟨_, rfl, command _ _ _ fun _ h => h.configureBody _⟩
  | goOnline p => exact ⟨_, rfl, command _ _ _ fun _ h => h.goOnlineBody⟩
  | openInvoice p => exact ⟨_, rfl, command _ _ _ fun _ h => h.openBody _⟩
  | abandonInvoice p => exact ⟨_, rfl, command _ _ _ fun _ h => h.abandonBody _⟩
  | closeInvoice p => exact ⟨_, rfl, command _ _ _ fun _ h => h.closeBody _⟩
  | releaseInvoice p => exact ⟨_, rfl, command _ _ _ fun _ h => h.releaseBody _⟩
  | startChest p => exact ⟨_, rfl, command _ _ _ fun _ h => h.startBody _⟩
  | abortChest p => exact ⟨_, rfl, command _ _ _ fun _ h => h.abortBody⟩
  | voidChest p => exact ⟨_, rfl, command _ _ _ fun _ h => h.voidBody _ _⟩
  | recordSample p => exact ⟨_, rfl, command _ _ _ fun _ h => h.sampleBody _ _ _⟩
  | remark p => exact ⟨_, rfl, command _ _ _ fun _ h => h.remarkBody _ _⟩
  | binFill p => exact ⟨_, rfl, command _ _ _ fun _ h => h.binBody _ _ _ _⟩
  | binEmpty p => exact ⟨_, rfl, command _ _ _ fun _ h => h.binBody _ _ _ _⟩
  | binWithdraw p => exact ⟨_, rfl, command _ _ _ fun _ h => h.binBody _ _ _ _⟩
  | zeroScale p => exact ⟨_, rfl, command _ _ _ fun _ h => h.zeroBody⟩
  | readInvoice p => exact ⟨_, rfl, command _ _ _ fun _ h => h.readInvoiceBody _⟩
  | readChest p => exact ⟨_, rfl, command _ _ _ fun _ h => h.readChestBody _ _ _⟩
  | readBin p => exact ⟨_, rfl, command _ _ _ fun _ h => Keeps.ite (h.replySpending _) (h.reply _ _)⟩
  | readLotSheet p => exact ⟨_, rfl, command _ _ _ fun _ h => h.readLotBody _ _ _⟩
  | readNotice p => exact ⟨_, rfl, command _ _ _ fun _ h => h.readNoticeBody⟩
  | readFault p => exact ⟨_, rfl, command _ _ _ fun _ h => h.readFaultBody _⟩
  | ackFault p => exact ⟨_, rfl, command _ _ _ fun _ h => h.ackBody _⟩
  | readStatus p => exact ⟨_, rfl, command _ _ _ fun _ h => h.readStatusBody _ _⟩
  | resetStation p => exact ⟨_, rfl, command _ _ _ fun _ h => h.trans (keeps_enterReset _)⟩
  | unknownCommand code p => exact ⟨_, rfl, Keeps.ite self (command _ _ _ fun _ h => h)⟩
  | commandDiscarded bytes midByte => exact ⟨_, rfl, Keeps.ite (self.setPort _) self⟩
  | readResponse clocked => exact ⟨_, rfl, self.same rfl rfl⟩
  | responseReady => exact ⟨_, rfl, self.setPort _⟩
  | reset => exact ⟨_, rfl, keeps_enterReset s⟩
  | resetEnd station rate => exact ⟨_, rfl, Keeps.ite (self.leaveReset _) self⟩
  | lineIdle => exact ⟨_, rfl, Keeps.ite self.becomeIdle self⟩
  | lineHeld => exact ⟨_, rfl, Keeps.ite ((self.setLine _).raiseFault rfl) self⟩
  | beginFrame => exact ⟨_, rfl, Keeps.ite ((self.setLine _).onBooks (Books.Sound.beginAttempt (.refl _))) self⟩
  | arbitrationLost char bit => exact ⟨_, rfl, Keeps.ite (self.loseArbitration char bit) self⟩
  | lineDrive char bit => exact ⟨_, rfl, Keeps.ite (self.abandonFrame char bit) self⟩
  | frameLost samples => exact ⟨_, rfl, Keeps.ite (self.setLine _) self⟩
  | frameFiltered samples => exact ⟨_, rfl, Keeps.ite (self.headerEnds _ _) self⟩
  | frameNaked samples => exact ⟨_, rfl, Keeps.ite (self.nakFrame _ _) self⟩
  | attemptEnd ack nak =>
    exact ⟨_, rfl, Keeps.ite ((self.setLine _).onBooks (Books.sound_attemptEnds _ _ _ _)) self⟩
  | closeCallFrame q n round packed planned =>
    exact ⟨_, rfl, self.receive q fun _ => .heardCall (.refl _) _ _ _⟩
  | closedFrame q n status packed missing net =>
    exact ⟨_, rfl, self.receive q fun _ => .heardClosed (.refl _) _ _ _ _ _ _⟩
  | tallyFrame q n answerTo planned high packed free inProgress net => exact ⟨_, rfl, keeps_receiveTally s q _ _ _⟩
  | claimFrame q n planned first count => exact ⟨_, rfl, keeps_receiveClaim s q _ _ _ _ _⟩
  | chestFrame q n serial gross tare net flags draws => exact ⟨_, rfl, self.receiveReport q _ _⟩
  | voidFrame q n serial => exact ⟨_, rfl, self.receive q fun _ => .heardVoid (.refl _) _ _ _⟩
  | sampleFrame q n serial weight => exact ⟨_, rfl, self.receive q fun _ => .heardSample (.refl _) _ _ _⟩
  | markFrame q n serial status => exact ⟨_, rfl, self.receive q fun _ => .heardMark (.refl _) _ _ _ _⟩
  | binFrame q n bin action batch quantity => exact ⟨_, rfl, self.receive q fun _ => .binAction (.refl _) _ _ _ _⟩
  | censusFrame q n planned => exact ⟨_, rfl, self.receive q fun _ => .heardCensus (.refl _) _ _ _⟩
  | censusWindowEnd n =>
    exact ⟨_, rfl, self.atMoment _ fun _ h => h.onBooks (.endCensusWindow (.refl _) n)⟩
  | closeWindowEnd n => exact ⟨_, rfl, self.atMoment _ fun _ h => h.onBooks (.endCloseWindow (.refl _) n)⟩
  | extensionEnd n => exact ⟨_, rfl, self.atMoment _ fun _ h => h.onBooks (.endExtension (.refl _) n)⟩
  | sampleWord edges => exact ⟨_, rfl, Keeps.ite (self.setWeigh _) self⟩
  | goodSample => exact ⟨_, rfl, self.atMoment _ fun _ h => h.goodSample⟩
  | sampleLoss => exact ⟨_, rfl, self.atMoment _ fun _ h => h.loseSamples⟩
  | settleComplete => exact ⟨_, rfl, self.atMoment _ fun _ h => h.completeSettle⟩
  | settleSlow => exact ⟨_, rfl, self.atMoment _ fun _ h => h.settleSlow⟩
  | zeroScaleTimeout => exact ⟨_, rfl, self.atMoment _ fun _ h => (h.setWeigh _).reply _ _⟩
  | noFlow => exact ⟨_, rfl, self.atMoment _ fun _ h => h.findNoFlow⟩
  | rejectPulseEnd => exact ⟨_, rfl, self.atMoment _ fun _ h => h.enterClear⟩
  | chestEdge level => exact ⟨_, rfl, Keeps.ite self (self.chestChanges level)⟩
  | holdActive => exact ⟨_, rfl, Keeps.ite self self.holdBegins⟩
  | holdEnd => exact ⟨_, rfl, Keeps.ite self.holdEnds self⟩
  | encoderPulse =>
    refine ⟨_, rfl, ?_⟩
    split
    · exact Keeps.ite self (self.pulse _)
    · exact self
  | shiftDone dataIn =>
    refine ⟨_, rfl, ?_⟩
    split
    · exact Keeps.ite (self.shiftDone _ _ _) self
    · exact self
  | firingPulseEnd => exact ⟨_, rfl, Keeps.ite (self.setMarker _) self⟩
  | startConfirmed samples => exact ⟨_, rfl, Keeps.ite (self.setLine _) self⟩

theorem keeps_of_exec {i : Instr} {s t : State} (run : exec i s = .next t) : s.Keeps t := by
  obtain ⟨u, ran, keeps⟩ := keeps_exec i s
  obtain rfl : u = t := by simpa using ran.symm.trans run
  exact keeps

/-- A step keeps the laws: it runs the row at the front of the queue, the timed row that is due, or 1 ms. -/
theorem keeps_step {s t : State} (run : step s = .next t) : s.Keeps t := by
  unfold step at run
  split at run
  · next i rest _ => exact ((Keeps.refl s).same (u := s.setPending rest) rfl rfl).trans (keeps_of_exec run)
  · unfold State.idle at run
    split at run
    · exact keeps_of_exec run
    · obtain rfl : s.idleTick = t := by simpa using run
      exact Keeps.ite (.refl s) ((Keeps.refl s).elapse 1)

end State

/-- Settles O60: each step keeps every law of the tables. -/
theorem tablesStayLawful : Obligations.TablesStayLawful :=
  ⟨fun _ _ law run => (State.keeps_step run).lawful law, fun _ _ law run => (State.keeps_step run).invoices law,
    fun _ _ law run => (State.keeps_step run).inflight law, fun _ _ law run => (State.keeps_step run).store law,
    fun _ _ law run => (State.keeps_step run).reservation law,
    fun _ _ invoices law run => (State.keeps_step run).serials invoices law⟩

end Sys2Proof.Machine
end

section
/-! PROOFS. What the end of an attempt makes of the entry under way, and what applying a frame that leaves does (R26 to R28,
R30, R56, R57, R151; O34). -/

namespace Sys2Proof.Machine

namespace Books

/-! ### The end of a counted attempt (R26, R27, R30) -/

section UnderWay
variable {b : Books} {pre post : List TxEntry} {e : TxEntry}

/-- With no attempt under way there is none to end. -/
theorem attemptEnds_of_none_underWay (none : ∀ e ∈ b.tx, e.underWay = false) (fill : Option Nat) (ack nak : Bool) :
    b.attemptEnds fill ack nak = b := by
  have sending : b.sending = .none := List.find?_eq_none.2 (fun e he => by simp [none e he])
  simp only [attemptEnds, sending]

theorem noteFirstAttempt_tx (b : Books) (e : TxEntry) : (b.noteFirstAttempt e).tx = b.tx := by
  unfold noteFirstAttempt
  split
  · split <;> rfl
  all_goals rfl

/-- Nothing of a discarded entry is noted (R50). -/
theorem noteFirstAttempt_discarded (b : Books) (discarded : e.removal = .discard) : b.noteFirstAttempt e = b := by
  unfold noteFirstAttempt
  split
  · simp [discarded]
  all_goals rfl

/-- The entry under way changed: the others stay as they are. -/
theorem mapSending_eq (others : ∀ x ∈ pre ++ post, x.underWay = false) (under : e.underWay = true)
    (f : TxEntry → TxEntry) :
    (pre ++ e :: post).map (fun x => if x.underWay then f x else x) = pre ++ f e :: post := by
  have keep : ∀ l : List TxEntry, (∀ x ∈ l, x ∈ pre ++ post) → l.map (fun x => if x.underWay then f x else x) = l :=
    fun l hl => (List.map_congr_left (g := id) (fun x hx => by simp [others x (hl x hx)])).trans (List.map_id l)
  rw [List.map_append, List.map_cons, keep pre (fun x hx => by simp [hx]), keep post (fun x hx => by simp [hx]), if_pos under]

/-- The tables after an attempt that counts, with no removal due: the entry waits, or leaves and is applied (R27, R28). -/
def judgedEntry (b : Books) (fill : Option Nat) (pre post : List TxEntry) (e : TxEntry) : Judged → Books
  | .again => { b with tx := pre ++ { e with attempts := e.attempts + 1, underWay := false } :: post }
  | .delivered => ({ b with tx := pre ++ post } : Books).applyOwn fill e.frame
  | .disputed => (({ b with tx := pre ++ post } : Books).raiseFault .lineDispute).applyOwn fill e.frame
  | .unheard =>
    (({ b with tx := pre ++ post } : Books).raiseNotice .frameUnheard e.frame.noticeInvoice e.frame.serial?
      (some e.frame.kind)).applyOwn fill e.frame

theorem attemptEnds_judged (tx : b.tx = pre ++ e :: post) (others : ∀ x ∈ pre ++ post, x.underWay = false)
    (under : e.underWay = true) (stays : e.removal = .none) (fill : Option Nat) (ack nak : Bool) :
    b.attemptEnds fill ack nak
      = (b.noteFirstAttempt e).judgedEntry fill pre post e (judgeAttempt ack nak (e.attempts + 1)) := by
  have noted : (b.noteFirstAttempt e).tx = pre ++ e :: post := (b.noteFirstAttempt_tx e).trans tx
  have waits : (pre ++ e :: post).map
      (fun x => if x.underWay then { x with underWay := false, attempts := e.attempts + 1 } else x)
      = pre ++ { e with attempts := e.attempts + 1, underWay := false } :: post := mapSending_eq others under _
  simp only [attemptEnds, sending_eq tx others under]
  rw [if_neg (by simp [stays]), dropSending_eq noted others under, noted, waits]
  cases judgeAttempt ack nak (e.attempts + 1) <;> rfl

theorem attemptEnds_discarded (tx : b.tx = pre ++ e :: post) (others : ∀ x ∈ pre ++ post, x.underWay = false)
    (under : e.underWay = true) (discarded : e.removal = .discard) (fill : Option Nat) (ack nak : Bool) :
    b.attemptEnds fill ack nak = { b with tx := pre ++ post } := by
  simp [attemptEnds, sending_eq tx others under, discarded, noteFirstAttempt_discarded, leaveRemoved,
    dropSending_eq tx others under]

/-- An entry whose removal has fallen due leaves by it; the attempt that ends has counted (R30). -/
theorem attemptEnds_removed (tx : b.tx = pre ++ e :: post) (others : ∀ x ∈ pre ++ post, x.underWay = false)
    (under : e.underWay = true) (removed : e.removal = .apply) (fill : Option Nat) (ack nak : Bool) :
    b.attemptEnds fill ack nak = ({ b.noteFirstAttempt e with tx := pre ++ post } : Books).applyRemoved fill
      { e with attempts := e.attempts + 1 } := by
  have noted : (b.noteFirstAttempt e).tx = pre ++ e :: post := (b.noteFirstAttempt_tx e).trans tx
  simp [attemptEnds, sending_eq tx others under, removed, leaveRemoved, dropSending_eq noted others under]

end UnderWay

/-- A CLAIM applied to its record; a frame of another kind does nothing (R30). -/
def applyClaim (b : Books) (fill : Option Nat) : Frame → Books
  | .claim n _ first count => b.applyOwnClaim fill n first count
  | _ => b

/-- A removed entry that has counted an attempt is applied if it is a CLAIM (R30). -/
theorem applyRemoved_attempted (b : Books) (fill : Option Nat) {e : TxEntry} (attempted : 1 ≤ e.attempts) :
    b.applyRemoved fill e = b.applyClaim fill e.frame := by
  unfold applyRemoved
  cases e.frame with
  | claim n planned first count => exact if_pos attempted
  | _ => rfl

/-! ### Claims applied (R57) -/

section Claimed
variable {b : Books} {fill : Option Nat}

theorem takeClaimed_of_not_claimable {r : Invoice} {x : Nat} (h : b.claimable r x = false) : b.takeClaimed fill r x = r :=
  if_neg (by simp [h])

/-- In an open state a serial joins the free list while fewer than 16 are free. -/
theorem takeClaimed_open {r : Invoice} {x : Nat} (h : b.claimable r x = true) (isOpen : r.state.isOpen = true) :
    b.takeClaimed fill r x = { r with free := if r.free.length < 16 then insertAsc x r.free else r.free } := by
  unfold takeClaimed
  rw [if_pos h]
  split
  iterate 3 (split <;> rfl)
  · next state => rw [state] at isOpen; cases isOpen
  · next state => rw [state] at isOpen; cases isOpen

/-- In CLOSING the fill in progress for the invoice, with none free, keeps one serial. -/
theorem takeClaimed_kept {r : Invoice} {x : Nat} (h : b.claimable r x = true) (closing : r.state = .closing)
    (none : r.free = []) (fills : fill = some r.number) : b.takeClaimed fill r x = { r with free := [x] } := by
  unfold takeClaimed
  rw [if_pos h]
  split
  iterate 3 (next state => rw [closing] at state; cases state)
  · exact if_pos (by simp [none, fills])
  · next state => rw [closing] at state; cases state

/-- Any other serial claimed in CLOSING or CLOSED is surrendered. -/
theorem takeClaimed_surrendered {r : Invoice} {x : Nat} (h : b.claimable r x = true)
    (closed : r.state = .closed ∨ (r.state = .closing ∧ (r.free ≠ [] ∨ fill ≠ some r.number))) :
    b.takeClaimed fill r x = { r with surrendered := r.surrendered + 1 } := by
  unfold takeClaimed
  rw [if_pos h]
  rcases closed with closed | ⟨closing, unkept⟩
  · simp [closed]
  · simp [closing, Decidable.not_and_iff_or_not.2 unkept]

/-- The serials of a claim that the record may take (R57). -/
def claimables (b : Books) (r : Invoice) (l : List Nat) : List Nat := l.filter (b.claimable r)

theorem claimables_cons (b : Books) (r : Invoice) (x : Nat) (l : List Nat) :
    b.claimables r (x :: l) = if b.claimable r x then x :: b.claimables r l else b.claimables r l := List.filter_cons

theorem foldl_takeClaimed_open (l : List Nat) {r : Invoice} (isOpen : r.state.isOpen = true) :
    l.foldl (b.takeClaimed fill) r = { r with
      free := (b.claimables r l).foldl (fun l x => if l.length < 16 then insertAsc x l else l) r.free } := by
  induction l generalizing r with
  | nil => rfl
  | cons x l ih =>
    rw [List.foldl_cons, claimables_cons]
    cases h : b.claimable r x with
    | false => rw [takeClaimed_of_not_claimable h, ih isOpen]; rfl
    | true =>
      rw [takeClaimed_open h isOpen, if_pos rfl]
      exact ih (r := { r with free := _ }) isOpen

theorem foldl_takeClaimed_surrendered (l : List Nat) {r : Invoice}
    (closed : r.state = .closed ∨ (r.state = .closing ∧ (r.free ≠ [] ∨ fill ≠ some r.number))) :
    l.foldl (b.takeClaimed fill) r = { r with surrendered := r.surrendered + (b.claimables r l).length } := by
  induction l generalizing r with
  | nil => rfl
  | cons x l ih =>
    rw [List.foldl_cons, claimables_cons]
    cases h : b.claimable r x with
    | false => rw [takeClaimed_of_not_claimable h, ih closed]; rfl
    | true =>
      have count : r.surrendered + 1 + (b.claimables r l).length = r.surrendered + (x :: b.claimables r l).length := by
        rw [List.length_cons]; omega
      rw [takeClaimed_surrendered h closed, if_pos rfl, ← count]
      exact ih (r := { r with surrendered := r.surrendered + 1 }) closed

/-- The first serial taken is kept for the fill in progress, the others are surrendered. -/
theorem foldl_takeClaimed_kept (l : List Nat) {r : Invoice} (closing : r.state = .closing) (none : r.free = [])
    (fills : fill = some r.number) : l.foldl (b.takeClaimed fill) r = { r with
      free := (b.claimables r l).take 1, surrendered := r.surrendered + ((b.claimables r l).length - 1) } := by
  induction l with
  | nil => cases r; cases none; rfl
  | cons x l ih =>
    rw [List.foldl_cons, claimables_cons]
    cases h : b.claimable r x with
    | false => rw [takeClaimed_of_not_claimable h, ih]; rfl
    | true =>
      rw [takeClaimed_kept h closing none fills, if_pos rfl]
      exact foldl_takeClaimed_surrendered l (r := { r with free := [x] }) (.inr ⟨closing, .inl (List.cons_ne_nil x [])⟩)

theorem invoice?_applyOwnClaim (b : Books) (fill : Option Nat) (n first count k : Nat) :
    (b.applyOwnClaim fill n first count).invoice? k = if k = n then (b.invoice? k).map (fun r =>
      { (List.range' first count).foldl (b.takeClaimed fill) { r with high := max r.high (first + count - 1) } with
        sent := none }) else b.invoice? k :=
  b.invoice?_modifyInvoice n k fun _ => (b.takeClaimed_foldl fill _ _).1

end Claimed

/-! ### CLOSE CALLs applied (R42, R151) -/

theorem applyRemoved_eq (b : Books) (fill : Option Nat) (e : TxEntry) :
    b.applyRemoved fill e = { b with invoices := (b.applyRemoved fill e).invoices } := by
  unfold applyRemoved
  split
  · split <;> rfl
  all_goals rfl

theorem foldl_applyRemoved_eq (b : Books) (fill : Option Nat) (l : List TxEntry) :
    l.foldl (applyRemoved fill) b = { b with invoices := (l.foldl (applyRemoved fill) b).invoices } := by
  induction l generalizing b with
  | nil => rfl
  | cons e l ih =>
    rw [List.foldl_cons, ih, applyRemoved_eq]

/-- Entries removed change nothing but the queue and the invoice records (R30). -/
theorem removeEntries_eq (b : Books) (fill : Option Nat) (how : Removal) (p : TxEntry → Bool) :
    b.removeEntries fill how p = { b with
      tx := (b.removeEntries fill how p).tx, invoices := (b.removeEntries fill how p).invoices } := by
  unfold removeEntries
  dsimp only
  split
  · rw [foldl_applyRemoved_eq]
  · rfl

/-- The entry of a record to CLOSING changes nothing but the queue and the invoice records (R42). -/
theorem enterClosing_eq (b : Books) (fill : Option Nat) (n : Nat) (role : CloseRole) :
    b.enterClosing fill n role = { b with
      tx := (b.enterClosing fill n role).tx, invoices := (b.enterClosing fill n role).invoices } := by
  unfold enterClosing
  dsimp only
  rw [removeEntries_eq]
  rfl

/-- The first CLOSE CALL leaves in an open state: the record enters CLOSING as CLOSER, and its round begins (R151). -/
theorem callLeaves_first {b : Books} {fill : Option Nat} {n : Nat} {r : Invoice} (found : b.invoice? n = some r)
    (isOpen : r.state.isOpen = true) {c : Books} (closing : c = b.enterClosing fill n .closer) :
    b.callLeaves fill n 1 = c.putRound
      { invoice := n, number := 1, phase := .window (later b.time 150), extensions := 0,
        answers := [c.ownAnswer n (inProgressOf fill n)] } := by
  simp only [callLeaves, found, isOpen, closing]
  rfl

theorem callLeaves_second {b : Books} {fill : Option Nat} {n : Nat} {r : Invoice} (found : b.invoice? n = some r)
    (closing : r.state = .closing) : b.callLeaves fill n 2 = b.modifyRound n (fun d =>
      if d.phase = .callQueued then { d with phase := .window (later b.time 150) } else d) := by
  simp [callLeaves, found, closing]

theorem callLeaves_other {b : Books} {fill : Option Nat} {n k : Nat} {r : Invoice} (found : b.invoice? n = some r)
    (first : ¬ (k = 1 ∧ r.state.isOpen = true)) (second : ¬ (k = 2 ∧ r.state = .closing)) :
    b.callLeaves fill n k = b := by
  simp only [callLeaves, found]
  rw [if_neg (by simpa using first), if_neg (by simpa using second)]

end Books
end Sys2Proof.Machine
end

section
/-! PROOFS. What the entry to HALT leaves of the entry whose attempt is under way (R30, R31, R123, R135, R169; O34). -/

namespace Sys2Proof.Machine

/-- What becomes of an entry while its attempt is under way: it stays, or a CLAIM, a CLOSE CALL or a CENSUS is marked to
leave at the attempt's end (R30). -/
def TxEntry.Becomes (e x : TxEntry) : Prop :=
  x = e ∨ (e.removal = .none ∧ e.frame.kind ∈ [1, 4, 10] ∧ x = { e with removal := .apply })

theorem TxEntry.Becomes.trans {e x y : TxEntry} (h : e.Becomes x) (k : x.Becomes y) : e.Becomes y := by
  rcases h with rfl | ⟨stays, kind, rfl⟩
  · exact k
  · rcases k with rfl | ⟨marked, -, -⟩
    · exact .inr ⟨stays, kind, rfl⟩
    · cases marked

/-- The entries of the Transmit Queue with an attempt under way; there is at most one. -/
def Books.underWay (b : Books) : List TxEntry := b.tx.filter (·.underWay)

/-- A change of the tables in which the entry under way stays under way. -/
def Books.Carries (a b : Books) : Prop := ∀ e, a.underWay = [e] → ∃ x, e.Becomes x ∧ b.underWay = [x]

/-- An entry marked to leave where the removal finds it and none fell due before (R30). -/
def TxEntry.marked (p : TxEntry → Bool) (e : TxEntry) : TxEntry :=
  if p e && e.removal = .none then { e with removal := .apply } else e

theorem TxEntry.marked_underWay (p : TxEntry → Bool) (e : TxEntry) : (e.marked p).underWay = e.underWay := by
  unfold TxEntry.marked; split <;> rfl

theorem TxEntry.becomes_marked {p : TxEntry → Bool} {e : TxEntry} (kind : p e = true → e.frame.kind ∈ [1, 4, 10]) :
    e.Becomes (e.marked p) := by
  unfold TxEntry.marked
  split
  · next found =>
    rw [Bool.and_eq_true, decide_eq_true_eq] at found
    exact .inr ⟨found.2, kind found.1, rfl⟩
  · exact .inl rfl

namespace Books

variable {a b : Books}

theorem Carries.refl (b : Books) : b.Carries b := fun e h => ⟨e, .inl rfl, h⟩

theorem Carries.trans {c : Books} (h : a.Carries b) (k : b.Carries c) : a.Carries c := by
  intro e sending
  obtain ⟨x, first, sending⟩ := h e sending
  obtain ⟨y, second, sending⟩ := k x sending
  exact ⟨y, first.trans second, sending⟩

theorem Carries.ite {c : Prop} [Decidable c] {b' : Books} (h : a.Carries b) (k : a.Carries b') :
    a.Carries (if c then b else b') := by split <;> assumption

/-- A change that leaves the queue. -/
theorem Carries.of_tx {c : Books} (h : a.Carries b) (same : c.tx = b.tx) : a.Carries c :=
  h.trans fun e sending => ⟨e, .inl rfl, by rw [underWay, same]; exact sending⟩

theorem tx_of_ledger {c : Books} (same : c.ledger = b.ledger) : c.tx = b.tx := by
  simp only [ledger, Prod.mk.injEq] at same
  exact same.2.1

theorem Carries.raiseNotice (h : a.Carries b) (k : NoticeKind) (i s v : Option Nat) :
    a.Carries (b.raiseNotice k i s v) := h.of_tx (tx_of_ledger (b.raiseNotice_ledger k i s v))

theorem Carries.dropReservation (h : a.Carries b) : a.Carries b.dropReservation :=
  Carries.ite (h.of_tx rfl) (h.of_tx rfl)

/-- A frame of a kind that opens no window joins behind the entry under way, or is applied to the bins alone (R23, R24). -/
theorem Carries.queueFrame (h : a.Carries b) (fill : Option Nat) {f : Frame} (kind : f.kind ∈ [2, 3, 6, 8]) :
    a.Carries (b.queueFrame fill f) := by
  cases room : b.hasRoom f with
  | true =>
    rw [queueFrame_of_room room]
    refine h.trans fun e sending => ⟨e, .inl rfl, ?_⟩
    simpa [underWay, TxEntry.fresh] using sending
  | false =>
    rw [queueFrame_of_full room]
    refine h.of_tx ?_
    cases f with
    | chest n r => exact tx_of_ledger ((drawAll_ledger _ _).trans rfl)
    | closed | tally | mark => rfl
    | closeCall | claim | void | sample | bin | census => simp [Frame.kind] at kind

/-! ### Removal (R30, R31) -/

theorem removeEntries_tx (b : Books) (fill : Option Nat) (p : TxEntry → Bool) :
    (b.removeEntries fill .apply p).tx
      = (b.tx.filter (fun e => !(p e && !e.underWay))).map (TxEntry.marked p) := by
  rw [removeEntries, if_pos rfl, foldl_applyRemoved_eq]
  refine List.map_congr_left fun e _ => ?_
  simp [TxEntry.marked]

/-- An entry under way keeps its place, marked where the removal finds it. -/
theorem removeEntries_underWay (b : Books) (fill : Option Nat) (p : TxEntry → Bool) :
    (b.removeEntries fill .apply p).underWay = b.underWay.map (TxEntry.marked p) := by
  have same : (fun e => TxEntry.underWay e) ∘ TxEntry.marked p = fun e => e.underWay :=
    funext fun e => TxEntry.marked_underWay p e
  have kept : ∀ e : TxEntry, (e.underWay && !(p e && !e.underWay)) = e.underWay := fun e => by
    cases e.underWay <;> simp
  simp only [underWay, removeEntries_tx, List.filter_map, same, List.filter_filter, kept]

theorem Carries.removeEntries (h : a.Carries b) (fill : Option Nat) {p : TxEntry → Bool}
    (kinds : ∀ e : TxEntry, p e = true → e.frame.kind ∈ [1, 4, 10]) : a.Carries (b.removeEntries fill .apply p) :=
  h.trans fun e sending =>
    ⟨e.marked p, TxEntry.becomes_marked (kinds e), by rw [removeEntries_underWay, sending]; rfl⟩

theorem Carries.enterClosing (h : a.Carries b) (fill : Option Nat) (n : Nat) (role : CloseRole) :
    a.Carries (b.enterClosing fill n role) := by
  refine Carries.of_tx (Carries.removeEntries (h.of_tx (c := b.modifyInvoice n _) rfl) fill fun e found => ?_) rfl
  simp only [TxEntry.isClaimOf, TxEntry.isCensusOf, Bool.or_eq_true, Bool.and_eq_true, decide_eq_true_eq] at found
  rcases found with ⟨kind, -⟩ | ⟨kind, -⟩ <;> simp [kind]

theorem Carries.enterClosed (h : a.Carries b) (fill : Option Nat) (n : Nat) (role : CloseRole) :
    a.Carries (b.enterClosed fill n role) := by
  have entered := Carries.ite (c := (b.invoice? n).any (fun r => r.state.isOpen) = true)
    (h.enterClosing fill n .peer) h
  refine Carries.of_tx (Carries.removeEntries (entered.of_tx (c := Books.modifyInvoice _ n _) rfl) fill fun e found => ?_) rfl
  simp only [TxEntry.isClaimOf, TxEntry.isCensusOf, TxEntry.isCallOf, Bool.or_eq_true, Bool.and_eq_true,
    decide_eq_true_eq] at found
  rcases found with (⟨kind, -⟩ | ⟨kind, -⟩) | ⟨kind, -⟩ <;> simp [kind]

/-! ### A chest that ends without a serial (R117, R154, R158) -/

theorem Carries.completeRound (h : a.Carries b) (n : Nat) : a.Carries (b.completeRound n) := by
  unfold Books.completeRound
  split
  · next r d _ _ =>
    have filed : a.Carries { b with sheets := putBy (fun l => l.invoice) (b.compileSheet r d) b.sheets } := h.of_tx rfl
    have told := fun f (kind : Frame.kind f ∈ [2, 3, 6, 8]) => (filed.queueFrame none kind).enterClosed none n .closer
    exact Carries.of_tx ((told _ (by simp [Frame.kind])).raiseNotice _ _ _ _) rfl
  · exact h

theorem Carries.recordAnswer (h : a.Carries b) (n : Nat) (x : Answer) : a.Carries (b.recordAnswer n x) := by
  have recorded : a.Carries (b.modifyRound n (fun d => d.record x)) := h.of_tx rfl
  unfold Books.recordAnswer Books.earlyCompletion
  split
  · exact recorded
  · split
    · exact Carries.ite (recorded.completeRound n) recorded
    · exact recorded
    · exact recorded

theorem Carries.queueTally (h : a.Carries b) (n answerTo inProgress : Nat) :
    a.Carries (b.queueTally n answerTo inProgress) := by
  unfold Books.queueTally
  split
  · exact h
  · exact h.queueFrame none (by simp [Frame.kind])

theorem Carries.fillEnded (h : a.Carries b) (n : Nat) : a.Carries (b.fillEnded n) := by
  unfold Books.fillEnded
  split
  · exact h
  · refine Carries.ite ?_ h
    split
    · exact h.queueTally n 2 0
    · exact h.recordAnswer n _
    · exact h

theorem Carries.chestLost (h : a.Carries b) (f : Fill) : a.Carries (b.chestLost f) := by
  unfold Books.chestLost
  split
  · exact Carries.fillEnded (h.of_tx (c := b.surrenderKept _) rfl) _
  · exact h

theorem Carries.markDone (h : a.Carries b) (n serial : Nat) (defect : Bool) :
    a.Carries (b.markDone n serial defect) := by
  unfold Books.markDone
  dsimp only
  split
  · exact ((h.of_tx (c := b.putChest _) rfl).queueFrame none (by simp [Frame.kind])).raiseNotice _ _ _ _
  · exact h.raiseNotice _ _ _ _

end Books

/-! ### The lane on entry to HALT (R123, R135, R169) -/

namespace State

variable {b : Books} {s : State}

theorem enterClear_books (s : State) : s.enterClear.books = s.books := by
  unfold enterClear
  dsimp only
  split
  · rfl
  · split
    · rfl
    · exact askSettle_books _ _

theorem cutFill_books (s : State) : s.cutFill.books = s.books := s.closeGate.withdrawLane_books

theorem Carries.endUndrawn (h : b.Carries s.books) : b.Carries s.endUndrawn.books := by
  unfold State.endUndrawn
  split
  · exact h
  · exact h.dropReservation.chestLost _

theorem Carries.enterReject (h : b.Carries s.books) (reason : RejectReason) :
    b.Carries (s.enterReject reason).books := by
  have withdrawn : b.Carries s.withdrawLane.books := by rw [withdrawLane_books]; exact h
  unfold State.enterReject
  dsimp only
  split
  · exact withdrawn
  · next f _ =>
    have told := withdrawn.raiseNotice .chestRejected (some f.invoice) none (some reason.num)
    refine Books.Carries.chestLost (Books.Carries.dropReservation ?_) f
    unfold State.queueReport
    split
    · exact told.queueFrame none (by simp [Frame.kind])
    · exact told

theorem Carries.abortFill (h : b.Carries s.books) (reason : RejectReason) : b.Carries (s.abortFill reason).books := by
  have cut : b.Carries s.cutFill.books := by rw [cutFill_books]; exact h
  unfold State.abortFill
  dsimp only
  split
  · exact Carries.enterReject cut reason
  · split
    · exact Carries.endUndrawn (s := s.cutFill.toStep .idle) cut
    · rw [enterClear_books]
      exact Carries.endUndrawn (s := s.cutFill.toStep .clear) cut

theorem Carries.haltFill (h : b.Carries s.books) : b.Carries s.haltFill.books := by
  have aborted := Carries.abortFill h .halted
  unfold State.haltFill
  split
  · exact aborted
  · exact aborted
  · exact aborted
  · exact aborted
  · exact aborted
  · exact aborted
  · split
    · exact h
    · show b.Carries s.withdrawLane.books
      rw [withdrawLane_books]
      exact h
  all_goals exact h

theorem Carries.haltMark (h : b.Carries s.books) : b.Carries s.haltMark.books := by
  unfold State.haltMark
  split
  · exact h
  · next j _ =>
    have done := h.markDone j.invoice j.serial (j.defect || j.position ≤ j.markLength)
    unfold State.endMark
    dsimp only
    split
    · split
      · rw [enterClear_books]; exact done
      · exact done
    · exact done

/-- On entry to HALT the entry under way keeps its place; a CLAIM is marked to leave (R30, R31). -/
theorem enterHalt_underWay {e : TxEntry} (sending : s.books.underWay = [e]) :
    ∃ x, e.Becomes x ∧ s.enterHalt.books.underWay = [x.marked (fun x => x.frame.kind = 4)] := by
  have halted : s.books.Carries (s.setStation .halt).haltFill.haltMark.books :=
    Carries.haltMark (Carries.haltFill (s := s.setStation .halt) ((Books.Carries.refl s.books).of_tx rfl))
  obtain ⟨x, becomes, sending⟩ := halted e sending
  refine ⟨x, becomes, ?_⟩
  unfold enterHalt
  dsimp only
  rw [withdrawLane_books, onBooks_books, Books.removeClaims, Books.removeEntries_underWay, sending]
  rfl

/-- A drive failure in ONLINE: the entry under way keeps its place; a CLAIM with no removal due is marked to leave. -/
theorem raiseHalting_underWay {e : TxEntry} (c : FaultCode) (online : s.books.station = .online)
    (sending : s.books.underWay = [e]) :
    ∃ x, e.Becomes x ∧ (e.removal = .none → e.frame.kind = 4 → x.removal = .apply)
      ∧ (s.raiseHalting c).books.underWay = [x] := by
  have enters : s.raiseHalting c = (s.onBooks (·.raiseFault c)).enterHalt := if_pos online
  obtain ⟨x, becomes, halted⟩ := enterHalt_underWay (s := s.onBooks (·.raiseFault c)) (e := e) sending
  refine ⟨_, becomes.trans (TxEntry.becomes_marked fun claim => ?_), fun stays kind => ?_, by rw [enters, halted]⟩
  · simp [of_decide_eq_true claim]
  · rcases becomes with rfl | ⟨-, -, rfl⟩
    · simp [TxEntry.marked, stays, kind]
    · simp [TxEntry.marked]

theorem raiseHalting_books_of_not_online (c : FaultCode) (other : s.books.station ≠ .online) :
    (s.raiseHalting c).books = s.books.raiseFault c :=
  congrArg State.books (if_neg (show (s.onBooks (·.raiseFault c)).books.station ≠ .online from other))

theorem raiseHalting_halts (c : FaultCode) (online : s.books.station = .online) :
    (s.raiseHalting c).books.station = .halt := by
  have enters : s.raiseHalting c = (s.onBooks (·.raiseFault c)).enterHalt := if_pos online
  rw [enters, (flows_enterHalt _).books.station]
  rfl

end State
end Sys2Proof.Machine
end

section
/-! PROOFS. Attempts are judged, and frames that leave are applied (R13, R26 to R28, R30, R56, R57, R64, R151; O34). -/

namespace Sys2Proof.Machine

/-! ### The judgement, and what a leaving frame does (R27, R28) -/

/-- The table of R27: NAK goes before ACK, and four attempts are the most. -/
theorem judgeAttempt_eq (ack nak : Bool) {count : Nat} (most : count ≤ 4) :
    judgeAttempt ack nak count =
      if nak = true ∧ count = 4 then .disputed
      else if nak = false ∧ ack = true then .delivered
      else if nak = false ∧ count = 4 then .unheard
      else .again := by
  have last : count < 4 ↔ count ≠ 4 := by omega
  unfold judgeAttempt
  cases nak <;> cases ack <;> by_cases four : count = 4 <;> simp [last, four]

theorem Books.applyOwn_none (b : Books) (fill : Option Nat) {f : Frame} (kind : f.kind ∈ [2, 3, 5, 7, 8]) :
    b.applyOwn fill f = b := by
  cases f with
  | closed | tally | void | sample | mark => rfl
  | closeCall | claim | chest | bin | census => simp [Frame.kind] at kind

/-- A CLAIM's first attempt is noted, unless the entry is discarded (R56, R50). -/
theorem Books.noteFirstAttempt_eq (b : Books) (e : TxEntry) :
    b.noteFirstAttempt e = (match e.frame with
      | .claim n _ first count =>
        if e.attempts = 0 ∧ e.removal ≠ .discard then b.claimSent n first count else b
      | _ => b) := by
  unfold noteFirstAttempt
  cases e.frame with
  | claim n planned first count => simp
  | _ => rfl

/-! ### ATTEMPT_END (R20, R26, R27, R30) -/

theorem exec_attemptEnd {s : State} (role : s.line.role = .sender) (x y : BitVec 16) :
    exec (.attemptEnd x y) s = .next { s with
      line := s.lineOver ⟨x, y⟩ .none,
      books := s.books.attemptEnds s.filling (!levelOf x) (!levelOf y) } := by
  refine (congrArg Host.Outcome.next (if_pos role)).trans ?_
  rw [State.frameEnds_stop]
  rfl

/-! ### LINE_DRIVE (R13) -/

/-- The entry under way is the only one of its kind, so the queue falls apart around it. -/
theorem Books.underWay_eq {b : Books} {pre post : List TxEntry} {e : TxEntry} (tx : b.tx = pre ++ e :: post)
    (others : ∀ x ∈ pre ++ post, x.underWay = false) (under : e.underWay = true) : b.underWay = [e] := by
  have none : ∀ l : List TxEntry, (∀ x ∈ l, x ∈ pre ++ post) → l.filter (·.underWay) = [] :=
    fun l hl => List.filter_eq_nil_iff.2 (fun x hx => by simp [others x (hl x hx)])
  rw [Books.underWay, tx, List.filter_append, List.filter_cons_of_pos under, none pre (fun x hx => by simp [hx]),
    none post (fun x hx => by simp [hx])]
  rfl

theorem Books.tx_of_underWay {b : Books} {x : TxEntry} (sending : b.underWay = [x]) :
    ∃ front back, b.tx = front ++ x :: back ∧ (∀ y ∈ front ++ back, y.underWay = false) ∧ x.underWay = true := by
  obtain ⟨front, back, tx, before, under, after⟩ := List.filter_eq_cons_iff.1 sending
  refine ⟨front, back, tx, fun y hy => ?_, under⟩
  rcases List.mem_append.1 hy with hy | hy
  · simpa using before y hy
  · simpa using List.filter_eq_nil_iff.1 after y hy

theorem State.driveFails_iff {s : State} {char : Nat} {bit : BitRead} {c : RxChar} (role : s.line.role = .sender)
    (hchar : 1 ≤ char) (low : 1 ≤ bit.place) (high : bit.place ≤ 11) (sent : s.sentChars[char - 1]? = some c) :
    s.driveFails char bit = true ↔ (RxChar.bits c)[bit.place - 1]? = some false ∧ levelOf bit.ticks = true := by
  have inFrame : (char = 0 || bit.place = 0 || 11 < bit.place) = false := by
    simp only [Bool.or_eq_false_iff, decide_eq_false_iff_not]; omega
  simp [State.driveFails, State.misreads, State.sentBit, role, inFrame, sent]

theorem exec_lineDrive_of_not_driveFails {s : State} {char : Nat} {bit : BitRead} (sound : ¬ s.driveFails char bit = true) :
    exec (.lineDrive char bit) s = .next s := congrArg Host.Outcome.next (if_neg sound)

/-- A drive failure halts the lane, and then counts as an attempt with neither slot seen (R13). -/
theorem exec_lineDrive {s t : State} {char : Nat} {bit : BitRead} {heard : List Bool}
    (fails : s.driveFails char bit = true) (read : s.readBack char bit = heard)
    (ht : t = ({ s with line := { s.line.pass heard with role := .none, assembler := .empty, slot := .none } }
      : State).raiseHalting .lineDrive) :
    exec (.lineDrive char bit) s = .next { t with books := t.books.attemptEnds t.filling false false } := by
  subst read ht
  exact congrArg Host.Outcome.next (if_pos fails)

/-- The entry under way after a raise that may have entered HALT: it is the same but for a removal that HALT makes due. -/
theorem State.raiseHalting_sending {s : State} {e : TxEntry} (c : FaultCode) (sending : s.books.underWay = [e]) :
    ∃ x, (s.raiseHalting c).books.underWay = [x] ∧ e.Becomes x ∧ (s.books.station ≠ .online → x = e)
      ∧ (s.books.station = .online → e.removal = .none → e.frame.kind = 4 → x.removal = .apply) := by
  by_cases online : s.books.station = .online
  · obtain ⟨x, becomes, claim, halted⟩ := raiseHalting_underWay c online sending
    exact ⟨x, halted, becomes, absurd online, fun _ => claim⟩
  · refine ⟨e, ?_, .inl rfl, fun _ => rfl, fun o => absurd o online⟩
    rw [raiseHalting_books_of_not_online c online]
    exact sending

/-- What becomes of an entry differs from it in the removal alone, and in that only for some kinds. -/
theorem TxEntry.Becomes.eq {e x : TxEntry} (h : e.Becomes x) : x = { e with removal := x.removal } := by
  rcases h with rfl | ⟨-, -, rfl⟩ <;> rfl

theorem TxEntry.fields_eq {e x : TxEntry} (same : x = { e with removal := x.removal }) :
    x.frame = e.frame ∧ x.attempts = e.attempts := ⟨by rw [same], by rw [same]⟩

theorem TxEntry.Becomes.removal_eq {e x : TxEntry} (h : e.Becomes x)
    (fixed : e.removal ≠ .none ∨ e.frame.kind ∈ [2, 3, 5, 6, 7, 8, 9]) : x.removal = e.removal := by
  rcases h with rfl | ⟨stays, kind, -⟩
  · rfl
  · rcases fixed with due | other
    · exact absurd stays due
    · simp only [List.mem_cons, List.not_mem_nil, or_false] at kind other
      omega

/-! ### O34 -/

/-- The attempt's end: the entry is judged, is discarded, or leaves by its removal (R27, R30). -/
theorem attemptEnd_acts {s : State} {pre post : List TxEntry} {e : TxEntry} {b : Books} (x y : BitVec 16)
    (role : s.line.role = .sender) (tx : s.books.tx = pre ++ e :: post)
    (others : ∀ x ∈ pre ++ post, x.underWay = false) (under : e.underWay = true)
    (noted : e.removal ≠ .discard → b = s.books.noteFirstAttempt e) :
    (e.removal = .none → exec (.attemptEnd x y) s = .next { s with
      line := s.lineOver ⟨x, y⟩ .none,
      books := b.judgedEntry s.filling pre post e (judgeAttempt (!levelOf x) (!levelOf y) (e.attempts + 1)) })
    ∧ (e.removal = .discard → exec (.attemptEnd x y) s = .next { s with
      line := s.lineOver ⟨x, y⟩ .none, books := { s.books with tx := pre ++ post } })
    ∧ (e.removal = .apply → exec (.attemptEnd x y) s = .next { s with
      line := s.lineOver ⟨x, y⟩ .none,
      books := ({ b with tx := pre ++ post } : Books).applyRemoved s.filling { e with attempts := e.attempts + 1 } }) := by
  rw [exec_attemptEnd role]
  refine ⟨fun stays => ?_, fun discarded => ?_, fun removed => ?_⟩
  · rw [noted (by simp [stays]), Books.attemptEnds_judged tx others under stays]
  · rw [Books.attemptEnds_discarded tx others under discarded]
  · rw [noted (by simp [removed]), Books.attemptEnds_removed tx others under removed]

/-- A drive failure's attempt: it is judged with neither slot seen, once HALT has been entered (R13, R27, R30). -/
theorem lineDrive_acts {s t : State} {char : Nat} {bit : BitRead} {heard : List Bool} {front back : List TxEntry}
    {x : TxEntry} {b : Books} (fails : s.driveFails char bit = true) (read : s.readBack char bit = heard)
    (ht : t = ({ s with line := { s.line.pass heard with role := .none, assembler := .empty, slot := .none } }
      : State).raiseHalting .lineDrive)
    (tx : t.books.tx = front ++ x :: back) (others : ∀ y ∈ front ++ back, y.underWay = false)
    (under : x.underWay = true) (noted : b = t.books.noteFirstAttempt x) :
    (x.removal = .none → x.attempts < 3 → exec (.lineDrive char bit) s = .next { t with
      books := { b with tx := front ++ { x with attempts := x.attempts + 1, underWay := false } :: back } })
    ∧ (x.removal = .none → 3 ≤ x.attempts → exec (.lineDrive char bit) s = .next { t with
      books := (({ b with tx := front ++ back } : Books).raiseNotice .frameUnheard x.frame.noticeInvoice x.frame.serial?
        (some x.frame.kind)).applyOwn t.filling x.frame })
    ∧ (x.removal = .discard → exec (.lineDrive char bit) s = .next { t with
      books := { t.books with tx := front ++ back } })
    ∧ (x.removal = .apply → exec (.lineDrive char bit) s = .next { t with
      books := ({ b with tx := front ++ back } : Books).applyRemoved t.filling
        { x with attempts := x.attempts + 1 } }) := by
  rw [exec_lineDrive fails read ht, noted]
  have judged := fun stays : x.removal = .none => Books.attemptEnds_judged tx others under stays t.filling false false
  refine ⟨fun stays few => ?_, fun stays most => ?_, fun discarded => ?_, fun removed => ?_⟩
  · have again : judgeAttempt false false (x.attempts + 1) = .again := by
      simp [judgeAttempt, show x.attempts + 1 < 4 by omega]
    rw [judged stays, again]
    rfl
  · have unheard : judgeAttempt false false (x.attempts + 1) = .unheard := by
      simp [judgeAttempt, show ¬ x.attempts + 1 < 4 by omega]
    rw [judged stays, unheard]
    rfl
  · rw [Books.attemptEnds_discarded tx others under discarded]
  · rw [Books.attemptEnds_removed tx others under removed]

/-- An own claim applied, by the state of its record (R57). -/
theorem applyOwnClaim_record {b : Books} {fill : Option Nat} {n first count : Nat} {r : Invoice} {xs : List Nat}
    (found : b.invoice? n = some r) (named : xs = b.claimables r (List.range' first count)) :
    (r.state.isOpen = true → (b.applyOwnClaim fill n first count).invoice? n = some { r with
      high := max r.high (first + count - 1), sent := none,
      free := xs.foldl (fun l x => if l.length < 16 then insertAsc x l else l) r.free })
    ∧ (r.state = .closing → r.free = [] → fill = some n →
      (b.applyOwnClaim fill n first count).invoice? n = some { r with
        high := max r.high (first + count - 1), sent := none, free := xs.take 1,
        surrendered := r.surrendered + (xs.length - 1) })
    ∧ ((r.state = .closed ∨ (r.state = .closing ∧ (r.free ≠ [] ∨ fill ≠ some n))) →
      (b.applyOwnClaim fill n first count).invoice? n = some { r with
        high := max r.high (first + count - 1), sent := none, surrendered := r.surrendered + xs.length }) := by
  obtain ⟨-, rfl⟩ := Books.invoice?_some found
  subst named
  rw [Books.invoice?_applyOwnClaim, if_pos rfl, found]
  refine ⟨fun isOpen => ?_, fun closing none fills => ?_, fun closed => ?_⟩
  · rw [Option.map_some, Books.foldl_takeClaimed_open _ (by exact isOpen)]
    rfl
  · rw [Option.map_some, Books.foldl_takeClaimed_kept _ (by exact closing) (by exact none) (by exact fills)]
    rfl
  · rw [Option.map_some, Books.foldl_takeClaimed_surrendered _ (by exact closed)]
    rfl

/-- The own answer of a new round counts the chests that stood before the record entered CLOSING (R151, R153). -/
theorem ownAnswer_enterClosing (b : Books) (fill : Option Nat) (n k : Nat) {c : Books} {cs : List Chest}
    (closing : c = b.enterClosing fill n .closer)
    (own : cs = b.chests.filter (fun c => c.invoice = n && c.serial?.isSome && c.origin = .own)) :
    c.ownAnswer n k = {
      station := b.straps.station, inProgress := k, packed := cs.length,
      free := min 16 (((c.invoice? n).map (·.surrendered)).getD 0), net := (cs.map (·.net)).sum } := by
  have same := b.enterClosing_eq fill n .closer
  rw [← closing] at same
  have straps : c.straps = b.straps := by rw [same]
  have chests : c.ownPacked n = cs := by
    rw [same, own]
    simp [Books.ownPacked, Books.packed, List.filter_filter, Bool.and_comm]
  simp only [Books.ownAnswer, Books.ownPackedCount, Books.ownNet, Books.closeFree, straps, chests]

/-- The fourth part of O34: a drive failure halts the lane, and the entry under way waits, leaves unheard, or leaves by a
removal (R13, R26, R30). -/
theorem driveFailure_acts {s t : State} {char : Nat} {bit : BitRead} {pre post : List TxEntry} {e : TxEntry}
    {heard : List Bool} (tx : s.books.tx = pre ++ e :: post) (others : ∀ x ∈ pre ++ post, x.underWay = false)
    (under : e.underWay = true) (fails : s.driveFails char bit = true) (read : s.readBack char bit = heard)
    (ht : t = ({ s with line := { s.line.pass heard with role := .none, assembler := .empty, slot := .none } }
      : State).raiseHalting .lineDrive) :
    (s.books.station = .online → t.books.station = .halt)
    ∧ ∃ (front back : List TxEntry) (x : TxEntry), t.books.tx = front ++ x :: back
      ∧ (∀ y ∈ front ++ back, y.underWay = false)
      ∧ x = { e with removal := x.removal }
      ∧ ((s.books.station ≠ .online ∨ e.removal ≠ .none ∨ e.frame.kind ∈ [2, 3, 5, 6, 7, 8, 9]) →
          x.removal = e.removal)
      ∧ (s.books.station = .online → e.removal = .none → e.frame.kind = 4 → x.removal = .apply)
      ∧ ∀ b, b = t.books.noteFirstAttempt x →
        (x.removal = .none → e.attempts < 3 → exec (.lineDrive char bit) s = .next { t with
          books := { b with tx := front ++ { x with attempts := e.attempts + 1, underWay := false } :: back } })
        ∧ (x.removal = .none → 3 ≤ e.attempts → exec (.lineDrive char bit) s = .next { t with
          books := (({ b with tx := front ++ back } : Books).raiseNotice .frameUnheard e.frame.noticeInvoice
            e.frame.serial? (some e.frame.kind)).applyOwn t.filling e.frame })
        ∧ (x.removal = .discard → exec (.lineDrive char bit) s = .next { t with
          books := { t.books with tx := front ++ back } })
        ∧ (x.removal = .apply → exec (.lineDrive char bit) s = .next { t with
          books := ({ b with tx := front ++ back } : Books).applyRemoved t.filling
            { x with attempts := e.attempts + 1 } }) := by
  refine ⟨fun online => by rw [ht]; exact State.raiseHalting_halts _ online, ?_⟩
  obtain ⟨x, sending, becomes, other, claim⟩ := State.raiseHalting_sending
    (s := { s with line := { s.line.pass heard with role := .none, assembler := .empty, slot := .none } }) .lineDrive
    (Books.underWay_eq tx others under)
  rw [← ht] at sending
  obtain ⟨front, back, tx', others', under'⟩ := Books.tx_of_underWay sending
  obtain ⟨frame, attempts⟩ := TxEntry.fields_eq becomes.eq
  refine ⟨front, back, x, tx', others', becomes.eq, fun fixed => ?_, claim, fun b noted => ?_⟩
  · rcases fixed with offline | fixed
    · rw [other offline]
    · exact becomes.removal_eq fixed
  · rw [← frame, ← attempts]
    exact lineDrive_acts fails read ht tx' others' under' noted

/-- Settles O34: the judgement of an attempt, the two rows that end one, and what each frame that leaves does. -/
theorem attemptsAreJudgedAndApplied : Obligations.AttemptsAreJudgedAndApplied := by
  refine ⟨fun ack nak count _ most => judgeAttempt_eq ack nak most, fun b fill => ?_, ?_, ?_, fun s char bit role => ?_,
    fun b fill ack nak none => Books.attemptEnds_of_none_underWay none fill ack nak, fun b n f number => ?_,
    fun b n first count => rfl, fun b fill n first count r xs found named => ?_, fun b n => rfl, fun b fill n k => ?_⟩
  · exact ⟨fun _ _ _ _ => rfl, fun _ _ => rfl, fun _ _ _ _ _ => rfl, fun _ _ => rfl, fun _ _ _ _ => rfl,
      fun f kind => b.applyOwn_none fill kind⟩
  · intro s x y ack nak pre post e b role tx others under hack hnak hb
    have noted : e.removal ≠ .discard → b = s.books.noteFirstAttempt e := fun kept => by
      rw [hb, Books.noteFirstAttempt_eq]
      cases e.frame <;> simp [kept]
    obtain ⟨judged, discarded, removed⟩ := attemptEnd_acts x y role tx others under noted
    subst hack hnak
    refine ⟨fun stays => (judged stays).trans ?_, discarded, fun apply => (removed apply).trans ?_⟩
    · cases judgeAttempt (!levelOf x) (!levelOf y) (e.attempts + 1) <;> rfl
    · rw [Books.applyRemoved_attempted _ _ (Nat.le_add_left 1 _)]
      cases e.frame <;> rfl
  · intro s t char bit pre post e c heard role tx others under hchar low high sent hheard ht
    have chars := State.sentChars_eq (Books.sending_eq tx others under)
    have read : s.readBack char bit = heard := by rw [hheard, State.readBack, chars]; rfl
    have fails := State.driveFails_iff role hchar low high (by rwa [chars])
    refine ⟨fun dominant recessive => ?_, fun sound => exec_lineDrive_of_not_driveFails fun failed => ?_⟩
    · obtain ⟨halts, front, back, x, tx', others', same, fixed, claim, acts⟩ :=
        driveFailure_acts tx others under (fails.2 ⟨dominant, recessive⟩) read ht
      obtain ⟨waits, unheard, discarded, removed⟩ := acts _ rfl
      obtain ⟨frame, attempts⟩ := TxEntry.fields_eq same
      refine ⟨halts, front, back, x, _, tx', others', same, fixed, claim, ?_, waits, unheard, discarded,
        fun apply => (removed apply).trans ?_⟩
      · have noted := t.books.noteFirstAttempt_eq x
        rw [frame, attempts] at noted
        refine noted.trans ?_
        cases e.frame <;> rfl
      · rw [Books.applyRemoved_attempted _ _ (Nat.le_add_left 1 _), frame]
        cases e.frame <;> rfl
    · obtain ⟨dominant, recessive⟩ := fails.1 failed
      rcases sound with other | misread
      · simp [dominant] at other
      · simp [recessive] at misread
  · exact exec_lineDrive_of_not_driveFails (by simp [State.driveFails, State.misreads, role])
  · refine ⟨?_, fun k other => ?_, rfl⟩
    · rw [b.invoice?_modifyInvoice n n number, if_pos rfl]
    · rw [b.invoice?_modifyInvoice n k number, if_neg other]
  · have named' : xs = b.claimables r (List.range' first count) := by
      rw [named, Books.claimables]
      obtain ⟨-, rfl⟩ := Books.invoice?_some found
      rfl
    obtain ⟨opened, kept, surrendered⟩ := applyOwnClaim_record (fill := fill) found named'
    refine ⟨fun k other => by rw [Books.invoice?_applyOwnClaim, if_neg other], rfl, fun state => opened ?_, kept,
      surrendered⟩
    rcases state with state | state | state <;> rw [state] <;> rfl
  · refine ⟨fun none => by simp [Books.callLeaves, none], fun r found => ⟨?_, fun second closing => ?_, ?_⟩⟩
    · intro first state c cs d closing own hd
      have isOpen : r.state.isOpen = true := by rcases state with state | state | state <;> rw [state] <;> rfl
      rw [first, Books.callLeaves_first found isOpen closing, ownAnswer_enterClosing b fill n _ closing own, hd]
      rfl
    · rw [second, Books.callLeaves_second found closing, Books.modifyRound]
      congr 1
      refine List.map_congr_left fun d _ => ?_
      by_cases number : d.invoice = n <;> simp [number]
    · intro first second
      refine Books.callLeaves_other found ?_ ?_
      · rintro ⟨one, isOpen⟩
        rcases first with other | state | state
        · exact other one
        · simp [state, InvoiceState.isOpen] at isOpen
        · simp [state, InvoiceState.isOpen] at isOpen
      · rintro ⟨two, closing⟩
        rcases second with other | state
        · exact other two
        · exact state closing

end Sys2Proof.Machine
end

section
/-! PROOFS. OPEN INVOICE: the checks of R35 in their order, and the record that joins the table with its CENSUS (R35, R36;
O13). -/

namespace Sys2Proof.Machine

/-! ### The checks (R35) -/

/-- With at most four components, the recipe's bytes read by index. -/
theorem recipeOf_eq_recipeAt {p : List Byte} (few : byteAt p 26 ≤ 4) : recipeOf p = recipeAt p := by
  have places : [27, 30, 33, 36] = (List.range 4).map (fun k => 27 + 3 * k) := rfl
  rw [recipeOf, places, ← List.map_take, List.take_range, Nat.min_eq_left few, List.map_map, recipeAt]
  exact List.map_congr_left fun k _ => by simp [Nat.add_right_comm 27]

theorem openLawful_components {p : List Byte} (lawful : openLawful p) : byteAt p 26 ≤ 4 := by
  simp only [openLawful] at lawful
  omega

/-- The values listed are distinct: none is that of an earlier place. -/
theorem nodup_map_range_iff (m : Nat) (f : Nat → Nat) :
    ((List.range m).map f).Nodup ↔ ∀ k < m, ∀ j < k, f j ≠ f k := by
  rw [List.Nodup, List.pairwise_map, List.pairwise_iff_getElem]
  simp only [List.length_range, List.getElem_range]
  exact ⟨fun h k hk j hj => h j k (hj.trans hk) hk hj, fun h j k _ hk hj => h k hk j hj⟩

/-- Check 1 of R35, in its own words. -/
theorem openInRange_iff (p : List Byte) : openInRange p = true ↔ openLawful p := by
  by_cases few : byteAt p 26 ≤ 4
  · have bins : (recipeAt p).map (·.bin) = (List.range (byteAt p 26)).map (fun k => byteAt p (27 + 3 * k)) := by
      simp [recipeAt]
    have shares : (recipeAt p).map (·.share) = (List.range (byteAt p 26)).map (fun k => num2 p (28 + 3 * k)) := by
      simp [recipeAt]
    rw [openInRange, recipeOf_eq_recipeAt few, bins, shares]
    simp only [Bool.and_eq_true, inside_iff, decide_eq_true_eq, nodup_map_range_iff, List.all_eq_true, recipeAt,
      List.forall_mem_map, List.mem_range, openLawful, and_assoc]
    constructor
    · rintro ⟨hn, hn', hm, hm', hg, hg', hc, hc', ht, ht', htol, htol', low, -, -, high, ordered, rest⟩
      exact ⟨hn, hn', hm, hm', hg, hg', hc, hc', ht, ht', htol, htol', low, ordered, high, rest⟩
    · rintro ⟨hn, hn', hm, hm', hg, hg', hc, hc', ht, ht', htol, htol', low, ordered, high, rest⟩
      exact ⟨hn, hn', hm, hm', hg, hg', hc, hc', ht, ht', htol, htol', low, ordered.trans high, low.trans ordered, high,
        ordered, rest⟩
  · have many : ¬ openLawful p := fun lawful => few (openLawful_components lawful)
    have outside : inside 1 4 (byteAt p 26) = false := by rw [Bool.eq_false_iff, Ne, inside_iff]; omega
    simp [openInRange, outside, many]

/-- Checks 1 and 2 of R35: the numbers, and then the texts. -/
theorem openRefusal_first (b : Books) (p : List Byte) :
    (¬ openLawful p → b.openRefusal p = some .range)
    ∧ (openLawful p → (∃ c ∈ textAt p 8 2 ++ textAt p 6 11, isGlyph c = false) → b.openRefusal p = some .badText) := by
  refine ⟨fun unlawful => ?_, fun lawful bad => ?_⟩
  · rw [← openInRange_iff] at unlawful
    simp [Books.openRefusal, unlawful]
  · have texts : ((markOf p).all isGlyph && (gradeOf p).all isGlyph) = false := by
      rw [← List.all_append, List.all_eq_false]
      exact bad.imp fun c hc => ⟨hc.1, by simp [hc.2]⟩
    simp [Books.openRefusal, openInRange_iff, lawful, texts]

/-- Checks 3 to 5 of R35, once the numbers and the texts are lawful: the feeders, and then the table. -/
theorem openRefusal_lawful (b : Books) {p : List Byte} (lawful : openLawful p)
    (glyphs : ∀ c ∈ textAt p 8 2 ++ textAt p 6 11, isGlyph c = true) :
    b.openRefusal p = if (recipeAt p).any (fun k => b.feederOf k.bin = 0) then some .noFeeder
      else if b.hasInvoice (num2 p 0) then some .duplicate else if 6 ≤ b.invoices.length then some .tableFull else none := by
  have few := openLawful_components lawful
  have texts : ((markOf p).all isGlyph && (gradeOf p).all isGlyph) = true := by
    rw [← List.all_append, List.all_eq_true]
    exact glyphs
  simp [Books.openRefusal, (openInRange_iff p).2 lawful, texts, recipeOf_eq_recipeAt few]

/-! ### The record and its CENSUS (R36) -/

/-- An entry put under its key and then changed, by a change that no other entry sees. -/
theorem map_putBy {α : Type} {key : α → Nat} {x : α} {f : α → α} (same : key (f x) = key x) {l : List α}
    (others : ∀ y ∈ l, f y = y) : (putBy key x l).map f = putBy key (f x) l := by
  induction l with
  | nil => rfl
  | cons y l ih =>
    obtain ⟨first, rest⟩ := List.forall_mem_cons.1 others
    simp only [putBy, same, apply_ite (List.map f), List.map_cons, first, ih rest,
      (List.map_congr_left rest).trans l.map_id']

/-- A record that joins under a new number, and the CENSUS queued for it (R36, R37). -/
theorem startCensus_joined {b : Books} {r : Invoice} (fresh : b.invoice? r.number = none) :
    ({ b with invoices := putBy (fun r => r.number) r b.invoices } : Books).startCensus r.number
      = ({ b with invoices := putBy (fun r => r.number) { r with phase := .queued } b.invoices } : Books).queueFrame none
          (.census r.number r.planned) := by
  have absent : ∀ q ∈ b.invoices, q.number ≠ r.number := by simpa [Books.invoice?] using fresh
  have found : (putBy (fun r => r.number) r b.invoices).find? (fun q => q.number = r.number) = some r :=
    find?_putBy_self (fun q hq here => absurd (by simpa using here) (absent q hq)) (by simp)
  have queued := map_putBy (key := fun r : Invoice => r.number) (x := r)
    (f := fun q => if q.number = r.number then { q with phase := .queued } else q) (l := b.invoices)
    (by rw [if_pos rfl]) (fun q hq => if_neg (absent q hq))
  rw [if_pos rfl] at queued
  simp only [Books.startCensus, Books.invoice?, found, Books.modifyInvoice, queued]

/-- OPEN INVOICE of a number that is not in the table (R36). -/
theorem openInvoice_fresh {b : Books} {p : List Byte} (fresh : b.hasInvoice (num2 p 0) = false) :
    b.openInvoice p = ({ b with
      invoices := putBy (fun r => r.number) { newInvoice b.straps.station p with phase := .queued } b.invoices,
      released := b.released.filter (fun n => n ≠ num2 p 0) } : Books).queueFrame none
        (.census (num2 p 0) (byteAt p 18)) := by
  have absent : b.invoice? (num2 p 0) = none := by simpa [Books.hasInvoice] using fresh
  exact startCensus_joined (b := { b with released := b.released.filter (fun n => n ≠ num2 p 0) })
    (r := newInvoice b.straps.station p) absent

/-! ### O13 -/

theorem exec_openInvoice (p : Params) (s : State) :
    exec (.openInvoice p) s = .next (s.hostCommand 0x10 p noData (fun t => t.openBody p.stated)) := rfl

theorem openBody_refused {s : State} {p : List Byte} {st : Status} (refused : s.books.openRefusal p = some st) :
    s.openBody p = s.reply st [] := by unfold State.openBody; rw [refused]

theorem openBody_taken {s : State} {p : List Byte} (taken : s.books.openRefusal p = none) :
    s.openBody p = (s.onBooks (·.openInvoice p)).reply .ok [] := by unfold State.openBody; rw [taken]

theorem openInvoice_refused {s : State} {p : Params} (admitted : s.admits 0x10 p) {st : Status}
    (refused : s.books.openRefusal p.stated = some st) : exec (.openInvoice p) s = .next (s.answers 0x10 p st []) := by
  rw [exec_openInvoice, State.hostCommand_admits admitted, openBody_refused (s := s.take _ _) refused, State.reply_take]
  rfl

theorem openInvoice_taken {s : State} {p : Params} (admitted : s.admits 0x10 p)
    (taken : s.books.openRefusal p.stated = none) : exec (.openInvoice p) s
      = .next { s with books := s.books.openInvoice p.stated, port := s.answered 0x10 p .ok [] } := by
  rw [exec_openInvoice, State.hostCommand_admits admitted, openBody_taken (s := s.take _ _) taken,
    State.reply_take_onBooks]

/-- Settles O13: the first check of R35 that fails answers, and a command that passes all of them opens the record. -/
theorem openInvoiceMakesARecord : Obligations.OpenInvoiceMakesARecord := by
  intro p s admitted
  obtain ⟨unlawful, badText⟩ := openRefusal_first s.books p.stated
  refine ⟨fun h => openInvoice_refused admitted (unlawful h),
    fun lawful bad => openInvoice_refused admitted (badText lawful bad), fun lawful glyphs => ?_⟩
  have refusal := openRefusal_lawful s.books lawful glyphs
  have few := openLawful_components lawful
  refine ⟨fun unserved => openInvoice_refused admitted ?_, fun served => ?_⟩
  · rw [refusal, if_pos (by simpa using unserved)]
  · rw [if_neg (by simpa using served)] at refusal
    refine ⟨fun present => openInvoice_refused admitted ?_, fun fresh full => openInvoice_refused admitted ?_,
      fun fresh room => ?_⟩
    · rw [refusal, if_pos present]
    · rw [refusal, if_neg (by simp [fresh]), if_pos full]
    · rw [if_neg (by simp [fresh]), if_neg (by omega)] at refusal
      rw [openInvoice_taken admitted refusal, openInvoice_fresh fresh, newInvoice, recipeOf_eq_recipeAt few]
      rfl

end Sys2Proof.Machine
end

section
/-! PROOFS. The bytes that READ INVOICE and READ LOT SHEET answer with (R51, R163; O24, O26). -/

namespace Sys2Proof.Machine

/-! ### Responses with free bytes, and the fields of a layout -/

theorem freeBytes_length (n k : Nat) : (freeBytes n k).length = k := by simp [freeBytes]

theorem beList_eq (width : Nat) (l : List Nat) :
    beList width l = l.map (BitVec.ofNat 8) ++ List.replicate (width - l.length) 0 := by simp [beList]

theorem textField_append (width n : Nat) (t rest : List Byte) : textField width n t ++ rest
    = be1 t.length ++ (t ++ (freeBytes n (width - t.length) ++ rest)) := by simp only [textField, List.append_assoc]

/-- A response with free bytes, made at once for a command just taken. -/
theorem State.replySpending_take (s : State) (code : Byte) (p : Params) (data : List Byte) :
    (s.take code (p.stated.length + p.beyond.length)).replySpending data
      = { s with port := s.answered code p .ok data, spare := s.spare + 64 } := rfl

/-! ### READ INVOICE (R51; O24) -/

theorem exec_readInvoice (p : Params) (s : State) : exec (.readInvoice p) s
    = .next (s.hostCommand 0x40 p noData (fun t => t.readInvoiceBody (num2 p.stated 0))) := rfl

theorem readInvoiceBody_absent {s : State} {n : Nat} (absent : s.books.invoice? n = none) :
    s.readInvoiceBody n = s.reply .notActive [] := by unfold State.readInvoiceBody; rw [absent]

theorem readInvoiceBody_present {s : State} {n : Nat} {r : Invoice} (found : s.books.invoice? n = some r) :
    s.readInvoiceBody n = s.replySpending (s.books.invoiceData r s.spare) := by
  unfold State.readInvoiceBody; rw [found]

/-- The sent claim's eleven bytes, all 0 when it is absent (log 53). -/
theorem SentClaim.bytes_none : SentClaim.bytes none = List.replicate 11 0 := rfl

theorem SentClaim.bytes_some (c : SentClaim) : SentClaim.bytes (some c) = be1 c.first ++ be1 c.count
    ++ be1 c.yielded.length ++ c.yielded.map (BitVec.ofNat 8) ++ List.replicate (8 - c.yielded.length) 0 := by
  simp only [SentClaim.bytes, beList_eq, List.append_assoc]

/-- Settles O24: the record's bytes in the layout's order, the padding of its two texts being free. -/
theorem readInvoiceGivesTheRecord : Obligations.ReadInvoiceGivesTheRecord := by
  rintro p s n admitted rfl
  rw [exec_readInvoice, State.hostCommand_admits admitted]
  refine ⟨fun absent => ?_, fun r found => ⟨freeBytes s.spare (8 - r.mark.length),
    freeBytes (s.spare + 8) (6 - r.grade.length), freeBytes_length _ _, freeBytes_length _ _, ?_⟩⟩
  · rw [readInvoiceBody_absent (s := s.take _ _) absent, State.reply_take]
    rfl
  · obtain ⟨-, number⟩ := Books.invoice?_some found
    rw [readInvoiceBody_present (s := s.take _ _) found, State.replySpending_take]
    simp only [State.take_books, State.take_spare, Books.invoiceData, Invoice.openFields, textField_append, recipeBytes,
      beList_eq, beFlag, number, List.flatMap, List.append_assoc]
    cases r.sent with
    | none => simp only [SentClaim.bytes_none]
    | some c => simp only [SentClaim.bytes_some, List.append_assoc]

/-! ### READ LOT SHEET (R49, R163; O26) -/

theorem exec_readLotSheet (p : Params) (s : State) : exec (.readLotSheet p) s = .next (s.hostCommand 0x43 p noData
    (fun t => t.readLotBody (num2 p.stated 0) (byteAt p.stated 2) (byteAt p.stated 3))) := rfl

theorem readLotBody_absent {s : State} {n : Nat} (absent : s.books.invoice? n = none) (part line : Nat) :
    s.readLotBody n part line = s.reply (if n ∈ s.books.released then .noLot else .notActive) [] := by
  simp [State.readLotBody, Books.hasInvoice, absent]

theorem readLotBody_present {s : State} {n : Nat} (present : s.books.invoice? n ≠ none) (part line : Nat) :
    (s.books.sheet? n = none → s.readLotBody n part line = s.reply .noLot [])
    ∧ ∀ l, s.books.sheet? n = some l → s.readLotBody n part line = s.readSheet l part line := by
  have has : s.books.hasInvoice n = true := Option.isSome_iff_ne_none.2 present
  refine ⟨fun none => ?_, fun l held => ?_⟩ <;> simp only [State.readLotBody, *] <;> rfl

/-- Outside the four parts, or outside the lines of the sheet, there is nothing to read (R163). -/
theorem readSheet_range (s : State) {l : LotSheet} {part line : Nat}
    (outside : part = 0 ∨ 4 < part ∨ (part = 4 ∧ (line = 0 ∨ l.lines.length < line))) :
    s.readSheet l part line = s.reply .range [] := by
  rcases outside with rfl | many | ⟨rfl, rfl | beyond⟩
  · rfl
  · obtain ⟨k, rfl⟩ : ∃ k, part = k + 5 := ⟨part - 5, by omega⟩
    rfl
  · rfl
  · have none : l.lines[line - 1]? = none := List.getElem?_eq_none (by omega)
    simp [State.readSheet, none]

theorem readSheet_header (s : State) (l : LotSheet) (line : Nat) :
    s.readSheet l 1 line = s.replySpending (l.header s.spare) := rfl

theorem readSheet_missing (s : State) (l : LotSheet) (line : Nat) :
    s.readSheet l 2 line = s.reply .ok (countedList l.missing) := rfl

theorem readSheet_stations (s : State) (l : LotSheet) (line : Nat) :
    s.readSheet l 3 line = s.reply .ok (countedList l.unconfirmed ++ countedList l.inProgress) := rfl

/-- A line of the sheet, by its place from 1 (R160). -/
theorem readSheet_line (s : State) {l : LotSheet} {line : Nat} {x : LotLine} (first : 1 ≤ line)
    (at_line : l.lines[line - 1]? = some x) : s.readSheet l 4 line = s.reply .ok x.data := by
  have place : line ≠ 0 := by omega
  simp [State.readSheet, place, at_line]

/-- A sheet is found under its invoice. -/
theorem Books.sheet?_some {b : Books} {n : Nat} {l : LotSheet} (held : b.sheet? n = some l) :
    l ∈ b.sheets ∧ l.invoice = n :=
  ⟨List.mem_of_find?_eq_some held, by simpa using List.find?_some held⟩

/-- Settles O26: which refusal answers, and the bytes of each of the four parts. -/
theorem readLotSheetGivesThePart : Obligations.ReadLotSheetGivesThePart := by
  rintro p s n admitted rfl
  rw [exec_readLotSheet, State.hostCommand_admits admitted]
  refine ⟨fun absent unfreed => ?_, fun absent freed => ?_, fun present none => ?_, fun l present held => ?_⟩
  · rw [readLotBody_absent (s := s.take _ _) absent, if_neg (by exact unfreed), State.reply_take]
    rfl
  · rw [readLotBody_absent (s := s.take _ _) absent, if_pos (by exact freed), State.reply_take]
    rfl
  · rw [(readLotBody_present (s := s.take _ _) present _ _).1 none, State.reply_take]
    rfl
  · rw [(readLotBody_present (s := s.take _ _) present _ _).2 l held]
    obtain ⟨-, invoice⟩ := Books.sheet?_some held
    refine ⟨fun outside => ?_, fun header => ⟨freeBytes s.spare (8 - l.mark.length),
      freeBytes (s.spare + 8) (6 - l.grade.length), freeBytes_length _ _, freeBytes_length _ _, ?_⟩, fun missing => ?_,
      fun stations => ?_, fun x part first at_line => ?_⟩
    · rw [readSheet_range _ outside, State.reply_take]
      rfl
    · rw [header, readSheet_header, State.replySpending_take, State.take_spare]
      unfold LotSheet.header
      simp only [textField_append, beFlag, invoice, List.append_assoc]
    · rw [missing, readSheet_missing, State.reply_take]
      rfl
    · rw [stations, readSheet_stations, State.reply_take]
      rfl
    · rw [part, readSheet_line _ first at_line, State.reply_take]
      rfl

end Sys2Proof.Machine
end

section
/-! PROOFS. ABANDON INVOICE and RELEASE INVOICE: what is freed, and what stands (R30, R48 to R50; O14). -/

namespace Sys2Proof.Machine

/-- The kinds that leave with an abandoned record (R48): CLOSE CALL, TALLY, CLAIM and CENSUS. -/
theorem TxEntry.abandoned_eq (n : Nat) (e : TxEntry) :
    (e.isClaimOf n || e.isCensusOf n || e.isCallOf n || e.isTallyOf n)
      = ([1, 3, 4, 10].contains e.frame.kind && e.frame.invoice = n) := by
  rw [Bool.eq_iff_iff]
  simp only [TxEntry.isClaimOf, TxEntry.isCensusOf, TxEntry.isCallOf, TxEntry.isTallyOf, Bool.or_eq_true,
    Bool.and_eq_true, decide_eq_true_eq, List.contains_iff_mem, List.mem_cons, List.not_mem_nil, or_false]
  tauto

namespace Books

/-! ### Entries discarded, slots and sheets freed -/

/-- A removal by ABANDON or RELEASE INVOICE (R30, R48): entries leave unapplied, and one under way is marked to. -/
theorem removeEntries_discard (b : Books) (fill : Option Nat) (p : TxEntry → Bool) :
    b.removeEntries fill .discard p = { b with
      tx := (b.tx.filter (fun e => !p e || e.underWay)).map (fun e => if p e then { e with removal := .discard } else e) } := by
  have kept : ∀ e : TxEntry, (!(p e && !e.underWay)) = (!p e || e.underWay) := fun e => by simp
  simp only [removeEntries, kept, decide_true, Bool.or_true, Bool.and_true]
  rfl

/-- The cause of STORE_FULL aside, freed slots change nothing (R142). -/
theorem noteSlots_eq (b : Books) : b.noteSlots
    = { b with faults := if 2 ≤ b.freeSlots then (b.clearCause .storeFull).faults else b.faults } := by
  unfold noteSlots
  split <;> rfl

/-- The lot sheet of an invoice is freed, and remembered where there was one (R49; log 43). -/
theorem freeSheet_eq (b : Books) (n : Nat) : b.freeSheet n = { b with
    sheets := b.sheets.filter (fun l => l.invoice ≠ n),
    released := if b.sheet? n = none then b.released else insertAsc n b.released } := by
  have held : (b.sheets.any (fun l => l.invoice = n)) = (b.sheet? n).isSome := by
    rw [sheet?, List.isSome_find?]
  unfold freeSheet
  cases found : b.sheet? n with
  | some l => rw [held, found]; rfl
  | none =>
    have others : b.sheets.filter (fun l => l.invoice ≠ n) = b.sheets :=
      List.filter_eq_self.2 (by simpa [sheet?] using found)
    rw [held, found, others]
    rfl

/-! ### The record freed (R48, R49) -/

theorem abandon_eq (b : Books) (n : Nat) : b.abandon n = { b with
    invoices := b.invoices.filter (fun r => r.number ≠ n),
    chests := b.chests.filter (fun c => c.invoice ≠ n),
    rounds := b.rounds.filter (fun d => d.invoice ≠ n),
    tx := (b.tx.filter (fun e => !([1, 3, 4, 10].contains e.frame.kind && e.frame.invoice = n) || e.underWay)).map
      (fun e => if [1, 3, 4, 10].contains e.frame.kind && e.frame.invoice = n then { e with removal := .discard } else e),
    faults := if 2 ≤ ({ b with chests := b.chests.filter (fun c => c.invoice ≠ n) } : Books).freeSlots
      then (b.clearCause .storeFull).faults else b.faults } := by
  have other : ∀ c : Chest, (!decide (c.invoice = n)) = decide (c.invoice ≠ n) := fun c => decide_not.symm
  simp only [abandon, TxEntry.abandoned_eq, removeEntries_discard, dropChests, noteSlots_eq, other]
  rfl

theorem release_eq (b : Books) (n : Nat) : b.release n = { b with
    invoices := b.invoices.filter (fun r => r.number ≠ n),
    chests := b.chests.filter (fun c => c.invoice ≠ n),
    sheets := b.sheets.filter (fun l => l.invoice ≠ n),
    released := if b.sheet? n = none then b.released else insertAsc n b.released,
    tx := b.tx.map (fun e =>
      if e.underWay ∧ e.frame.kind = 4 ∧ e.frame.invoice = n then { e with removal := .discard } else e),
    faults := if 2 ≤ ({ b with chests := b.chests.filter (fun c => c.invoice ≠ n) } : Books).freeSlots
      then (b.clearCause .storeFull).faults else b.faults } := by
  have other : ∀ c : Chest, (!decide (c.invoice = n)) = decide (c.invoice ≠ n) := fun c => decide_not.symm
  have stay : ∀ e : TxEntry, (!(e.underWay && e.isClaimOf n) || e.underWay) = true := fun e => by
    cases e.underWay <;> simp
  have claim : ∀ e : TxEntry, (e.underWay && e.isClaimOf n) = true
      ↔ e.underWay = true ∧ e.frame.kind = 4 ∧ e.frame.invoice = n := fun e => by simp [TxEntry.isClaimOf]
  simp only [release, removeEntries_discard, dropChests, noteSlots_eq, freeSheet_eq, other, stay, claim,
    List.filter_true]
  rfl

end Books

/-! ### The two commands past R174's first four checks (R48, R49) -/

theorem exec_abandonInvoice (p : Params) (s : State) : exec (.abandonInvoice p) s
    = .next (s.hostCommand 0x11 p noData (fun t => t.abandonBody (num2 p.stated 0))) := rfl

theorem exec_releaseInvoice (p : Params) (s : State) : exec (.releaseInvoice p) s
    = .next (s.hostCommand 0x13 p noData (fun t => t.releaseBody (num2 p.stated 0))) := rfl

theorem State.fillHolds_iff (s : State) (n : Nat) : s.fillHolds n = true
    ↔ s.filler.step ≠ .idle ∧ ∃ f, s.filler.fill = some f ∧ f.invoice = n ∧ f.freed = false := by
  simp [State.fillHolds, Fill.held, Option.any_eq_true, and_comm]

theorem State.remarkHolds_iff (s : State) (n : Nat) : s.remarkHolds n = true
    ↔ ∃ j, s.marker.job = some j ∧ j.requester = .remark ∧ j.invoice = n := by
  simp [State.remarkHolds, Option.any_eq_true]

/-- ABANDON INVOICE: NOT_ACTIVE, then BUSY, else the record is freed (R48). -/
theorem abandonBody_eq (s : State) (n : Nat) : s.abandonBody n
    = if (s.books.invoice? n).any (fun r => r.state ≠ .closed) then
        if s.fillHolds n || s.remarkHolds n then s.reply .busy [] else (s.onBooks (·.abandon n)).reply .ok []
      else s.reply .notActive [] := by
  unfold State.abandonBody State.abandonRefusal
  cases (s.books.invoice? n).any (fun r => r.state ≠ .closed) with
  | false => rfl
  | true => cases s.fillHolds n || s.remarkHolds n <;> rfl

/-! ### O14 -/

theorem abandonInvoice_acts {s : State} {p : Params} (admitted : s.admits 0x11 p) {n : Nat} (hn : n = num2 p.stated 0) :
    exec (.abandonInvoice p) s = .next (if (s.books.invoice? n).any (fun r => r.state ≠ .closed) then
        if s.fillHolds n || s.remarkHolds n then s.answers 0x11 p .busy []
        else { s with books := s.books.abandon n, port := s.answered 0x11 p .ok [] }
      else s.answers 0x11 p .notActive []) := by
  rw [exec_abandonInvoice, State.hostCommand_admits admitted, abandonBody_eq, State.reply_take, State.reply_take,
    State.reply_take_onBooks, hn]
  rfl

theorem releaseInvoice_acts {s : State} {p : Params} (admitted : s.admits 0x13 p) {n : Nat} (hn : n = num2 p.stated 0) :
    exec (.releaseInvoice p) s = .next (if (s.books.invoice? n).any (fun r => r.state = .closed) then
        { s with
          books := s.books.release n,
          filler := { s.filler with fill := s.filler.fill.map (·.loseRecord n) },
          port := s.answered 0x13 p .ok [] }
      else s.answers 0x13 p .notClosed []) := by
  rw [exec_releaseInvoice, State.hostCommand_admits admitted, State.releaseBody, hn]
  rfl

theorem Fill.loseRecord_eq (f : Fill) (n : Nat) :
    f.loseRecord n = if f.invoice = n then { f with freed := true } else f := by
  unfold Fill.loseRecord
  split <;> simp [*]

/-- Settles O14: the refusals of the two commands, and what each frees when it is taken. -/
theorem abandonAndReleaseFreeTheRecord : Obligations.AbandonAndReleaseFreeTheRecord := by
  refine ⟨fun p s n admitted hn => ?_, fun p s n admitted hn => ?_⟩
  · rw [abandonInvoice_acts admitted hn]
    refine ⟨fun closed => ?_, fun r found isOpen held => ?_, fun r found isOpen idle unmarked => ?_⟩
    · rw [if_neg (by simpa [Option.any_eq_false] using closed)]
    · have holds : (s.fillHolds n || s.remarkHolds n) = true := by
        rw [Bool.or_eq_true, s.fillHolds_iff, s.remarkHolds_iff]
        exact held
      rw [if_pos (by simp [found, isOpen]), if_pos holds]
    · have free : ¬ (s.fillHolds n || s.remarkHolds n) = true := by
        rw [Bool.or_eq_true, s.fillHolds_iff, s.remarkHolds_iff]
        rintro (⟨busy, f, fill, invoice, kept⟩ | ⟨j, job, remark, invoice⟩)
        · exact busy (idle f fill invoice kept)
        · exact unmarked j job remark invoice
      rw [if_pos (by simp [found, isOpen]), if_neg free, Books.abandon_eq]
      exact ⟨_, rfl, rfl, rfl, rfl, rfl, rfl, rfl⟩
  · rw [releaseInvoice_acts admitted hn]
    refine ⟨fun others => ?_, fun r found closed => ?_⟩
    · rw [if_neg (by simpa [Option.any_eq_false] using others)]
    · rw [if_pos (by simp [found, closed]), Books.release_eq]
      refine ⟨_, rfl, rfl, rfl, rfl, fun none => if_pos none, fun held => if_neg held, rfl, rfl, ?_⟩
      simp only [Fill.loseRecord_eq]

end Sys2Proof.Machine
end

section
/-! PROOFS. The FULL flag, the slots of the Chest Store, and records put in their place (R47, R138 to R142; O52). -/

namespace Sys2Proof.Machine

/-! ### Keys and places in the store (R138) -/

/-- The numbers of a key within their ranges: a serial at most 99, a reservation number at most 255. -/
def Chest.keyBounded (c : Chest) : Prop := ∀ k, (c.key = .packed k → k ≤ 99) ∧ (c.key = .orphan k → k ≤ 255)

/-- Within those ranges the place of a record in the list is its invoice with its key. -/
theorem Chest.order_eq_iff {c d : Chest} (hc : c.keyBounded) (hd : d.keyBounded) :
    c.order = d.order ↔ c.invoice = d.invoice ∧ c.key = d.key := by
  unfold Chest.keyBounded at hc hd
  unfold Chest.order
  cases ck : c.key with
  | packed x =>
    have := (hc x).1 ck
    cases dk : d.key with
    | packed y => have := (hd y).1 dk; simp only [ChestKey.packed.injEq]; omega
    | orphan y => have := (hd y).2 dk; simp only [reduceCtorEq, and_false, iff_false]; omega
  | orphan x =>
    have := (hc x).2 ck
    cases dk : d.key with
    | packed y => have := (hd y).1 dk; simp only [reduceCtorEq, and_false, iff_false]; omega
    | orphan y => have := (hd y).2 dk; simp only [ChestKey.orphan.injEq]; omega

namespace Books

section PutChest
variable {b : Books} {c : Chest} (bounded : ∀ x ∈ c :: b.chests, x.keyBounded)
include bounded

/-- A record put in the store takes the place of the one under its key, and of no other. -/
theorem mem_putChest (ascending : b.chests.Pairwise (fun x y => x.order < y.order)) (x : Chest) :
    x ∈ (b.putChest c).chests ↔ x = c ∨ (x ∈ b.chests ∧ ¬ (x.invoice = c.invoice ∧ x.key = c.key)) := by
  obtain ⟨hc, others⟩ := List.forall_mem_cons.1 bounded
  rw [putChest, mem_putBy_iff ascending]
  refine or_congr_right (and_congr_right fun hx => not_congr ?_)
  exact Chest.order_eq_iff (others x hx) hc

theorem chest?_putChest_self {k : Nat} (key : c.key = .packed k) : (b.putChest c).chest? c.invoice k = some c := by
  obtain ⟨hc, others⟩ := List.forall_mem_cons.1 bounded
  refine find?_putBy_self (fun x hx here => ?_) (by simp [key])
  rw [Chest.order_eq_iff (others x hx) hc, key]
  simpa using here

theorem chest?_putChest_other {n k : Nat} (other : ¬ (n = c.invoice ∧ c.key = .packed k)) :
    (b.putChest c).chest? n k = b.chest? n k := by
  obtain ⟨hc, others⟩ := List.forall_mem_cons.1 bounded
  have misses : (decide (c.invoice = n) && decide (c.key = .packed k)) = false := by
    rw [← Bool.decide_and, decide_eq_false_iff_not]
    exact fun ⟨invoice, key⟩ => other ⟨invoice.symm, key⟩
  refine find?_putBy_other (fun x hx here => ?_) misses
  obtain ⟨invoice, key⟩ := (Chest.order_eq_iff (others x hx) hc).1 here
  rw [invoice, key]
  exact misses

end PutChest

/-! ### Free slots (R138, R142) -/

theorem two_le_freeSlots_iff (b : Books) :
    2 ≤ b.freeSlots ↔ b.chests.length + (if b.reservation = none then 0 else 1) ≤ 254 := by
  cases h : b.reservation <;> simp [freeSlots, h] <;> omega

/-- The cause of STORE_FULL clears when two slots are free (R142). -/
theorem noteSlots_of_room (b : Books) : b.noteSlots
    = if b.chests.length + (if b.reservation = none then 0 else 1) ≤ 254 then b.clearCause .storeFull else b := by
  simp only [noteSlots, two_le_freeSlots_iff]

/-! ### The FULL flag (R47) -/

/-- Two changes that agree on the record of a number. -/
theorem modifyInvoice_congr {b : Books} {n : Nat} {f g : Invoice → Invoice}
    (agree : ∀ q ∈ b.invoices, q.number = n → f q = g q) : b.modifyInvoice n f = b.modifyInvoice n g := by
  unfold modifyInvoice
  congr 1
  refine List.map_congr_left fun q hq => ?_
  split
  · next number => exact agree q hq number
  · rfl

section EvalFull
variable {b : Books} {n : Nat} {r : Invoice} (found : b.invoice? n = some r)
include found

theorem evalFull_of_not_open (closed : r.state.isOpen = false) : b.evalFull n = b := by
  simp [evalFull, found, closed]

theorem evalFull_of_open (isOpen : r.state.isOpen = true) : b.evalFull n
    = if r.ceiling ≤ b.packedCount n ∧ r.full = false then
        (b.modifyInvoice n (fun q => { q with full := decide (r.ceiling ≤ b.packedCount n) })).raiseNotice .invoiceFull
          (some n) none none
      else b.modifyInvoice n (fun q => { q with full := decide (r.ceiling ≤ b.packedCount n) }) := by
  simp [evalFull, found, isOpen]

end EvalFull

end Books

theorem InvoiceState.isOpen_iff (st : InvoiceState) : st.isOpen = true ↔ st = .census ∨ st = .active ∨ st = .stale := by
  cases st <;> simp [InvoiceState.isOpen]

theorem InvoiceState.not_isOpen_iff (st : InvoiceState) : st.isOpen = false ↔ st = .closing ∨ st = .closed := by
  cases st <;> simp [InvoiceState.isOpen]

/-! ### O52 -/

/-- Settles O52: the FULL flag by the packed count, the slots by the records, and each record by its key. -/
theorem fullAndStoreFollowTheRecords : Obligations.FullAndStoreFollowTheRecords := by
  refine ⟨fun b n r found => ⟨fun closed => ?_, fun isOpen count c hcount hc alone => ?_⟩, fun b p c hc => ?_,
    fun b c k => rfl, fun b c ascending bounded => ?_, fun b c hc => ?_⟩
  · exact Books.evalFull_of_not_open found (r.state.not_isOpen_iff.2 closed)
  · rw [Books.evalFull_of_open found (r.state.isOpen_iff.2 isOpen), hc, hcount,
      Books.modifyInvoice_congr fun q hq number => by rw [alone q hq number]]
    rfl
  · subst hc
    exact Books.noteSlots_of_room _
  · exact ⟨putBy_pairwise ascending, Books.mem_putChest bounded ascending,
      fun k key => Books.chest?_putChest_self bounded key, fun n k other => Books.chest?_putChest_other bounded other, rfl⟩
  · subst hc
    exact Books.noteSlots_of_room _

end Sys2Proof.Machine
end

section
/-! PROOFS. CENSUS and TALLY heard, the comparison of plans, and the tally set (R38, R39, R44, R45, R61; O38). -/

namespace Sys2Proof.Machine

/-! ### A frame taken (R17 to R19) -/

/-- A frame that is followed in full, passed, and in range is handed to its owner, and the repeat memory follows. -/
theorem State.receive_takes {s : State} {q : Sender} {f : Frame} (taken : s.takes q f) (hand : Books → Books) :
    s.receive q f hand
      = s.took q ((if s.books.passes f then hand s.books else s.books).remember q.number.toNat f) := by
  obtain ⟨hears, agrees, range, settled⟩ := taken
  have role : s.line.role = .receiver true := by simp [State.hears] at hears; exact hears.1
  have follows := (State.follows_of_receiver role _).trans agrees
  have ends : (kindFiltered f.kind && !s.topicSettled) = false := by
    rcases settled with h | h | h <;> simp [kindFiltered, State.topicSettled, Assembler.passed, h]
  simp only [State.receive, follows, hears, ends, range, State.takeFrame, State.frameEnds_stop]
  rfl

/-- A frame of a filtered kind reaches the tables when its invoice is there (R19). -/
theorem Books.passes_filtered (b : Books) {f : Frame} (filtered : kindFiltered f.kind = true) :
    b.passes f = b.hasInvoice f.invoice := by simp [Books.passes, filtered]

namespace Books

variable {b : Books} {n : Nat}

/-! ### State and role, which few operations change -/

/-- The state and the role of an invoice's record (R34). -/
def stance (b : Books) (n : Nat) : Option (InvoiceState × Option CloseRole) :=
  (b.invoice? n).map (fun r => (r.state, r.role))

theorem closing_eq (b : Books) (n : Nat) :
    b.closing n = (b.stance n).any (fun x => x.1 = .closing && x.2 = some .closer) := by
  cases found : b.invoice? n <;> simp [closing, stance, found]

theorem stance_of_invoices {c : Books} (same : c.invoices = b.invoices) (k : Nat) : c.stance k = b.stance k := by
  simp only [stance, invoice?, same]

theorem stance_modifyInvoice (b : Books) (n k : Nat) {f : Invoice → Invoice} (number : ∀ r, (f r).number = r.number)
    (state : ∀ r, (f r).state = r.state) (role : ∀ r, (f r).role = r.role) :
    (b.modifyInvoice n f).stance k = b.stance k := by
  rw [stance, b.invoice?_modifyInvoice n k number]
  split
  · simp [stance, Function.comp_def, state, role]
  · rfl

theorem stance_raiseNotice (b : Books) (kind : NoticeKind) (i s v : Option Nat) (k : Nat) :
    (b.raiseNotice kind i s v).stance k = b.stance k := stance_of_invoices (b.raiseNotice_invoices kind i s v) k

theorem stance_applyOwnClaim (b : Books) (fill : Option Nat) (n first count k : Nat) :
    (b.applyOwnClaim fill n first count).stance k = b.stance k := by
  refine b.stance_modifyInvoice n k (fun _ => (b.takeClaimed_foldl fill _ _).1) (fun r => ?_) (fun r => ?_)
  all_goals
    obtain ⟨_, _, claimed, -⟩ := b.takeClaimed_foldl_eq fill (List.range' first count)
      { r with high := max r.high (first + count - 1) }
    rw [claimed]

theorem stance_applyRemoved (fill : Option Nat) (b : Books) (e : TxEntry) (k : Nat) :
    (b.applyRemoved fill e).stance k = b.stance k := by
  unfold applyRemoved
  split
  · split
    · exact b.stance_applyOwnClaim ..
    · rfl
  all_goals rfl

theorem stance_removeEntries (b : Books) (fill : Option Nat) (how : Removal) (p : TxEntry → Bool) (k : Nat) :
    (b.removeEntries fill how p).stance k = b.stance k := by
  have applied : ∀ (l : List TxEntry) (c : Books), (l.foldl (applyRemoved fill) c).stance k = c.stance k := by
    intro l
    induction l with
    | nil => exact fun _ => rfl
    | cons e l ih => exact fun c => (ih _).trans (stance_applyRemoved fill c e k)
  unfold removeEntries
  dsimp only
  split
  · exact applied ..
  · rfl

theorem stance_rewriteClaim (b : Books) (n k : Nat) : (b.rewriteClaim n).stance k = b.stance k := by
  unfold rewriteClaim
  split
  · rfl
  · split
    · split
      · exact (stance_raiseNotice ..).trans (b.stance_removeEntries ..)
      · rfl
    · rfl

theorem stance_raiseHigh (b : Books) (n v k : Nat) : (b.raiseHigh n v).stance k = b.stance k := by
  unfold raiseHigh
  split
  · rfl
  · split
    · exact (stance_rewriteClaim ..).trans
        (b.stance_modifyInvoice n k (fun _ => by rfl) (fun _ => by rfl) (fun _ => by rfl))
    · rfl

theorem stance_evalFull (b : Books) (n k : Nat) : (b.evalFull n).stance k = b.stance k := by
  have judged : ∀ full : Bool, (b.modifyInvoice n (fun r => { r with full := full })).stance k = b.stance k :=
    fun _ => b.stance_modifyInvoice n k (fun _ => by rfl) (fun _ => by rfl) (fun _ => by rfl)
  unfold evalFull
  split
  · rfl
  · split
    · dsimp only
      split
      · exact (stance_raiseNotice ..).trans (judged _)
      · exact judged _
    · rfl

theorem stance_claimCheck (b : Books) (n k : Nat) : (b.claimCheck n).stance k = b.stance k := by
  unfold claimCheck
  split
  · rfl
  · split
    · rfl
    · split
      · cases room : b.hasRoom _ with
        | true => rw [queueFrame_of_room room]; rfl
        | false => rw [queueFrame_of_full room, dropFrame_claim _ _ rfl]; rfl
      · exact stance_raiseNotice ..

theorem stance_comparePlan (b : Books) (fill : Option Nat) (n heard k : Nat) :
    (b.comparePlan fill n heard).stance k = b.stance k := by
  have lowered : ((b.raiseFault .planMismatch).lowerCeiling fill n heard).stance k = b.stance k := by
    have cut := ((stance_evalFull _ n k).trans (stance_rewriteClaim _ n k)).trans
      ((b.raiseFault .planMismatch).stance_modifyInvoice n k
        (f := fun r => { r with ceiling := heard, free := r.free.filter (fun x => x ≤ heard) })
        (fun _ => by rfl) (fun _ => by rfl) (fun _ => by rfl))
    unfold lowerCeiling claimCheckIfEmptied
    dsimp only
    split
    · exact (stance_claimCheck _ n k).trans cut
    · exact cut
  unfold comparePlan
  split
  · rfl
  · split
    · dsimp only
      split
      · exact lowered
      · rfl
    · rfl

/-! ### The comparison of plans (R45) -/

section Compare
variable {r : Invoice} (found : b.invoice? n = some r)
include found

theorem comparePlan_of_agreeing {m : Nat} (agreeing : m = r.planned ∨ r.state.isOpen = false) (fill : Option Nat) :
    b.comparePlan fill n m = b := by
  rcases agreeing with h | h <;> simp [comparePlan, found, h]

theorem comparePlan_of_differing {m : Nat} (differs : m ≠ r.planned) (isOpen : r.state.isOpen = true)
    (fill : Option Nat) : b.comparePlan fill n m
      = if m < r.ceiling then (b.raiseFault .planMismatch).lowerCeiling fill n m else b.raiseFault .planMismatch := by
  simp [comparePlan, found, differs, isOpen]

/-- The ceiling falls (R45, R61; log 12): the claim check runs when the serials kept have all gone in a fill. -/
theorem lowerCeiling_eq (fill : Option Nat) (m : Nat) {c : Books}
    (hc : c = ((b.modifyInvoice n (fun r =>
      { r with ceiling := m, free := r.free.filter (fun x => x ≤ m) })).rewriteClaim n).evalFull n) :
    b.lowerCeiling fill n m = if r.free ≠ [] ∧ c.freeOf n = [] ∧ fill = some n then c.claimCheck n else c := by
  have before : b.freeOf n = r.free := by simp [freeOf, found]
  subst hc
  simp [lowerCeiling, claimCheckIfEmptied, before, and_assoc]

/-! ### The answers (R38, R39, R155) -/

theorem queueTally_eq (answerTo inProgress : Nat) : b.queueTally n answerTo inProgress = b.queueFrame none (.tally n
    { answerTo := answerTo, planned := r.planned, high := r.high,
      packed := (b.chests.filter (fun c => c.invoice = n && c.serial?.isSome && c.origin = .own)).length,
      free := if answerTo = 2 then min 16 r.surrendered else r.free.length, inProgress := inProgress,
      net := ((b.chests.filter (fun c => c.invoice = n && c.serial?.isSome && c.origin = .own)).map (·.net)).sum }) := by
  have own : b.ownPacked n = b.chests.filter (fun c => c.invoice = n && c.serial?.isSome && c.origin = .own) := by
    simp [ownPacked, packed, List.filter_filter, Bool.and_comm]
  simp [queueTally, found, tallyNow, ownPackedCount, ownNet, closeFree, own]

theorem raiseHigh_eq (v : Nat) : b.raiseHigh n v
    = if r.high < v then (b.modifyInvoice n (fun r => { r with high := v })).rewriteClaim n else b := by
  simp [raiseHigh, found]

/-- A TALLY heard for an invoice of the table (R39): the answer goes by the record's state and role as they stood. -/
theorem heardTally_eq (fill : Option Nat) (sender : Nat) (t : Tally) {c : Books}
    (hc : c = (if r.state = .closed then b.joinParticipants n sender
      else (b.joinParticipants n sender).raiseHigh n t.high).comparePlan fill n t.planned) :
    b.heardTally fill sender n t = if t.answerTo = 1 then c.noteTally n sender t.packed
      else if r.state = .closing ∧ r.role = some .closer then c.recordAnswer n (t.answer sender) else c := by
  have joined : (b.joinParticipants n sender).invoice? n
      = some { r with participants := insertAsc sender r.participants } := by
    rw [joinParticipants, b.invoice?_modifyInvoice n n (fun _ => by rfl), if_pos rfl, found]
    rfl
  have stays : (b.joinParticipants n sender).stance n = b.stance n :=
    b.stance_modifyInvoice n n (fun _ => by rfl) (fun _ => by rfl) (fun _ => by rfl)
  have same : c.stance n = b.stance n := by
    rw [hc, stance_comparePlan]
    split
    · exact stays
    · exact (stance_raiseHigh ..).trans stays
  have closer : c.closing n = decide (r.state = .closing ∧ r.role = some .closer) := by
    rw [closing_eq, same]
    simp [stance, found]
  simp only [heardTally, joined, Option.any_some, decide_eq_true_eq, ← hc, closer]

end Compare

end Books

/-! ### O38, clause by clause -/

theorem exec_censusFrame (q : Sender) (n : BitVec 16) (m : Byte) (s : State) : exec (.censusFrame q n m) s
    = .next (s.receive q (.census n.toNat m.toNat) (·.heardCensus s.filling n.toNat m.toNat)) := rfl

theorem exec_tallyHeard {c : Instr} {q : Sender} {n : Nat} {t : Tally} (heard : heardOf c = some (q, .tally n t))
    (s : State) :
    exec c s = .next (s.receive q (.tally n t) (·.heardTally s.filling q.number.toNat n t)) := by
  cases c with
  | tallyFrame => cases heard; rfl
  | _ => cases heard

theorem censusFrame_acts {s : State} {q : Sender} {m : Byte} {n : BitVec 16} (taken : s.takes q (.census n.toNat m.toNat)) :
    exec (.censusFrame q n m) s = .next (s.took q ((if s.books.hasInvoice n.toNat
      then s.books.heardCensus s.filling n.toNat m.toNat else s.books).setRepeat q.number.toNat none)) := by
  rw [exec_censusFrame, State.receive_takes taken, Books.passes_filtered _ rfl]
  rfl

theorem tallyHeard_acts {s : State} {c : Instr} {q : Sender} {n : Nat} {t : Tally}
    (heard : heardOf c = some (q, .tally n t)) (taken : s.takes q (.tally n t)) :
    exec c s = .next (s.took q ((if s.books.hasInvoice n
      then s.books.heardTally s.filling q.number.toNat n t else s.books).setRepeat q.number.toNat none)) := by
  rw [exec_tallyHeard heard, State.receive_takes taken, Books.passes_filtered _ rfl]
  rfl

theorem Books.hasInvoice_of_none {b : Books} {n : Nat} (absent : b.invoice? n = none) : ¬ b.hasInvoice n = true := by
  simp [Books.hasInvoice, absent]

theorem Books.hasInvoice_of_some {b : Books} {n : Nat} {r : Invoice} (found : b.invoice? n = some r) :
    b.hasInvoice n = true := by simp [Books.hasInvoice, found]

/-- Settles O38: a CENSUS and a TALLY heard, and each of the operations that they ask for. -/
theorem heardCensusAndTally : Obligations.HeardCensusAndTally := by
  refine ⟨fun s q m n taken => ⟨_, censusFrame_acts taken, fun absent => if_neg (Books.hasInvoice_of_none absent),
      fun r found => if_pos (Books.hasInvoice_of_some found)⟩,
    fun b n a g r found => Books.queueTally_eq found a g,
    fun b fill n m r found => ⟨fun agrees => ?_, fun differs isOpen => ?_⟩,
    fun s c q n y heard taken => ⟨_, tallyHeard_acts heard taken,
      fun absent => if_neg (Books.hasInvoice_of_none absent), fun r found b₁ hb => ?_⟩,
    fun b n q k => ⟨rfl, ?_, fun absent => ?_, fun r found => ?_⟩,
    fun x l ascending => ⟨insertAsc_pairwise ascending, fun y => mem_insertAsc⟩,
    fun t l ascending => ⟨putBy_pairwise ascending, fun u => mem_putBy_iff ascending⟩⟩
  · exact Books.comparePlan_of_agreeing found (agrees.imp_right r.state.not_isOpen_iff.2) fill
  · have compared := Books.comparePlan_of_differing found differs (r.state.isOpen_iff.2 isOpen) fill
    refine ⟨fun above => compared.trans (if_neg (by omega)), fun below c hc => ?_⟩
    rw [compared, if_pos below]
    exact Books.lowerCeiling_eq (b := b.raiseFault .planMismatch) found fill m hc
  · rw [if_pos (Books.hasInvoice_of_some found), Books.heardTally_eq found s.filling q.number.toNat y hb]
    refine ⟨fun census => if_pos census, fun close closing closer => ?_, fun close other => ?_⟩
    · rw [if_neg (by omega), if_pos ⟨closing, closer⟩]
      rfl
    · rw [if_neg (by omega), if_neg (by tauto)]
  · unfold Books.noteTally
    congr 1
    funext r
    cases r.phase <;> rfl
  · simp [Books.raiseHigh, absent]
  · have raised := Books.raiseHigh_eq found k
    exact ⟨fun low => raised.trans (if_neg (by omega)), fun high => raised.trans (if_pos high)⟩

end Sys2Proof.Machine
end

section
/-! PROOFS. The end of a census window: the view it finds is the record's own, so two records under one number can find
two views (R40; O41). -/

namespace Sys2Proof.Machine

/-- Where a number has one record, the view put in it is the one that VIEW_CURRENT carries: the premise that O41's first
clause is without. -/
theorem Books.endCensusWindow_of_alone {b : Books} {n : Nat} {r : Invoice} (found : b.invoice? n = some r)
    (alone : ∀ q ∈ b.invoices, q.number = n → q = r) (once : r.recount = false) : b.endCensusWindow n
      = (b.modifyInvoice n (fun q => { q.endCensus with state := .active, view := b.viewNow n r })).raiseNotice
        .viewCurrent (some n) none (some (b.viewNow n r).num) := by
  have own : b.modifyInvoice n (fun q => { q.endCensus with state := .active, view := b.viewNow n q })
      = b.modifyInvoice n (fun q => { q.endCensus with state := .active, view := b.viewNow n r }) :=
    Books.modifyInvoice_congr fun q hq number => by rw [alone q hq number]
  rw [← own]
  simp [Books.endCensusWindow, found, once]

/-! ### A table with two records for one number -/

/-- A record whose census window ends now, with nothing packed and no tally heard: its count gives WHOLE. -/
def countedWhole : Invoice := { newInvoice 1 [] with number := 7, phase := .window 0 }

/-- The same with a tally of one chest that this station does not have: its count gives PARTIAL. -/
def countedShort : Invoice := { countedWhole with tallies := [⟨2, 1⟩] }

/-- Both records under the number 7, which no run from reset comes to (R34, O60). -/
def sharedNumber : State := { State.reset with books := { Books.reset with invoices := [countedWhole, countedShort] } }

/-- The views in the table after a step. -/
def viewsOf : Host.Outcome State Fault Refusal → List View
  | .next t => t.books.invoices.map (·.view)
  | .fault _ | .refused _ => []

theorem viewsOf_sharedNumber : viewsOf (exec (.censusWindowEnd 7) sharedNumber) = [.whole, .short] := by decide

/-- Refutes O41: its first clause gives every record of the number the view found for the first one, where the model counts
for each record its own tally set.  The two differ in a table with two records for one number, which the statement does not
exclude. -/
theorem not_windowsEndAtTheirTimes : ¬ Obligations.WindowsEndAtTheirTimes := by
  rintro ⟨censusWindow, -⟩
  obtain ⟨-, view⟩ := censusWindow sharedNumber 7 countedWhole 0 _ _ rfl rfl rfl rfl
  have views := congrArg viewsOf (view .whole rfl (by decide))
  rw [viewsOf_sharedNumber] at views
  exact absurd views (by decide)

end Sys2Proof.Machine
end

section
/-! PROOFS. VOID CHEST and RECORD SAMPLE: the checks of R143 and R145 in their order, and what each changes (R63; O20). -/

namespace Sys2Proof.Machine

/-! ### The two commands past R174's first four checks (R143, R145) -/

theorem exec_voidChest (p : Params) (s : State) : exec (.voidChest p) s = .next (s.hostCommand 0x22 p noData
    (fun t => t.voidBody (num2 p.stated 0) (byteAt p.stated 2))) := rfl

theorem exec_recordSample (p : Params) (s : State) : exec (.recordSample p) s = .next (s.hostCommand 0x23 p noData
    (fun t => t.sampleBody (num2 p.stated 0) (byteAt p.stated 2) (byteAt p.stated 3))) := rfl

theorem voidChest_acts {s : State} {p : Params} (admitted : s.admits 0x22 p) {n k : Nat} (hn : n = num2 p.stated 0)
    (hk : k = byteAt p.stated 2) : exec (.voidChest p) s = .next (match s.books.voidRefusal n k with
      | some st => s.answers 0x22 p st []
      | none => { s with books := s.books.voidChest n k, port := s.answered 0x22 p .ok [] }) := by
  rw [exec_voidChest, State.hostCommand_admits admitted, ← hn, ← hk]
  unfold State.voidBody
  rw [State.take_books]
  cases s.books.voidRefusal n k <;> rfl

theorem recordSample_acts {s : State} {p : Params} (admitted : s.admits 0x23 p) {n k w : Nat}
    (hn : n = num2 p.stated 0) (hk : k = byteAt p.stated 2) (hw : w = byteAt p.stated 3) :
    exec (.recordSample p) s = .next (match s.books.sampleRefusal n k w with
      | some st => s.answers 0x23 p st []
      | none => { s with books := s.books.recordSample n k w, port := s.answered 0x23 p .ok [] }) := by
  rw [exec_recordSample, State.hostCommand_admits admitted, ← hn, ← hk, ← hw]
  unfold State.sampleBody
  rw [State.take_books]
  cases s.books.sampleRefusal n k w <;> rfl

namespace Books

variable {b : Books} {n k w : Nat}

/-! ### The checks of VOID CHEST (R63, R143) -/

theorem voidRefusal_notActive (absent : (∀ r, b.invoice? n = some r → r.state ≠ .active) ∨ b.chest? n k = none) :
    b.voidRefusal n k = some .notActive := by
  unfold voidRefusal
  cases found : b.invoice? n with
  | none => rfl
  | some r =>
    by_cases active : r.state = .active
    · have none : b.chest? n k = none := absent.resolve_left fun other => other r found active
      simp only [none, ite_self]
    · exact if_pos active

/-- Past R143's first check: NOT_OWN, then the answer of R63. -/
theorem voidRefusal_of_found {r : Invoice} {c : Chest} (found : b.invoice? n = some r) (active : r.state = .active)
    (packed : b.chest? n k = some c) : b.voidRefusal n k
      = if c.origin ≠ .own then some .notOwn
        else if k ≤ r.ceiling ∧ 16 ≤ r.free.length then some .listFull else none := by
  simp [voidRefusal, found, active, packed]

/-! ### The checks of RECORD SAMPLE (R145) -/

theorem sampleRefusal_range (outside : w = 0 ∨ 50 < w) : b.sampleRefusal n k w = some .range := by
  have out : inside 1 50 w = false := by
    rw [Bool.eq_false_iff, ne_eq, inside_iff]
    omega
  simp [sampleRefusal, out]

section InRange
variable (low : 1 ≤ w) (up : w ≤ 50)
include low up

theorem sampleRefusal_notActive (absent : (∀ r, b.invoice? n = some r → r.state ≠ .active ∧ r.state ≠ .closing)
    ∨ b.chest? n k = none) : b.sampleRefusal n k w = some .notActive := by
  have inRange := inside_iff.2 ⟨low, up⟩
  rcases absent with other | none
  · have idle : (b.invoice? n).any (fun r => r.state = .active || r.state = .closing) = false := by
      simpa [Option.any_eq_false] using other
    simp [sampleRefusal, inRange, idle]
  · simp [sampleRefusal, inRange, none]

/-- Past R145's first two checks: SAMPLED, then the weight against the net. -/
theorem sampleRefusal_of_found {r : Invoice} {c : Chest} (found : b.invoice? n = some r)
    (state : r.state = .active ∨ r.state = .closing) (packed : b.chest? n k = some c) : b.sampleRefusal n k w
      = if c.sample ≠ none then some .sampled else if c.net < w then some .range else none := by
  have inRange := inside_iff.2 ⟨low, up⟩
  have taken : (r.state = .active || r.state = .closing) = true := by simpa using state
  simp [sampleRefusal, inRange, found, -Bool.or_eq_true, taken, packed, Option.isSome_iff_ne_none]

end InRange

theorem recordSample_of_found {c : Chest} (packed : b.chest? n k = some c) : b.recordSample n k w
    = (b.putChest { c with sample := some w }).queueFrame none (.sample n k w) := by simp [recordSample, packed]

end Books

/-! ### O20 -/

/-- Settles O20: the first check that fails answers, and a command that passes all of them frees or samples the record. -/
theorem voidChestAndRecordSample : Obligations.VoidChestAndRecordSample := by
  refine ⟨fun p s n k admitted hn hk => ?_, fun p s n k w admitted hn hk hw => ?_⟩
  · rw [voidChest_acts admitted hn hk]
    refine ⟨fun absent => ?_, fun r c found active packed => ?_⟩
    · rw [Books.voidRefusal_notActive absent]
    · rw [Books.voidRefusal_of_found found active packed]
      refine ⟨fun heard => ?_, fun own below full => ?_, fun own room => ?_⟩
      · rw [if_pos (by simp [heard])]
      · rw [if_neg (by simp [own]), if_pos ⟨below, full⟩]
      · rw [if_neg (by simp [own]), if_neg (by omega)]
        rfl
  · rw [recordSample_acts admitted hn hk hw]
    refine ⟨fun outside => ?_, fun low up => ⟨fun absent => ?_, fun r c found state packed => ?_⟩⟩
    · rw [Books.sampleRefusal_range outside]
    · rw [Books.sampleRefusal_notActive low up absent]
    · rw [Books.sampleRefusal_of_found low up found state packed, Books.recordSample_of_found packed]
      refine ⟨fun sampled => ?_, fun fresh light => ?_, fun fresh heavy => ?_⟩
      · rw [if_pos sampled]
      · rw [if_neg (not_not.2 fresh), if_pos light]
      · rw [if_neg (not_not.2 fresh), if_neg (by omega)]

end Sys2Proof.Machine
end

section
/-! PROOFS. CLAIM heard and a serial heard in use: the serials given up and yielded, the high mark, and the rewrite or removal
of a CLAIM never sent (R29, R58, R60; O39). -/

namespace Sys2Proof.Machine

/-! ### What leaves and what is yielded (R58, R60) -/

/-- A sent claim with the serial in its yielded set, where the serial lies in its range. -/
def SentClaim.yield (c : SentClaim) (x : Nat) : SentClaim :=
  if c.first ≤ x ∧ x < c.first + c.count then { c with yielded := insertAsc x c.yielded } else c

theorem Invoice.yield_eq (r : Invoice) (x : Nat) : r.yield x = { r with sent := r.sent.map (·.yield x) } := by
  unfold Invoice.yield Invoice.sentCovers
  cases sent : r.sent with
  | none => rw [if_neg (by simp), Option.map_none, ← sent]
  | some c =>
    by_cases covers : c.first ≤ x ∧ x < c.first + c.count
    · simp [SentClaim.yield, covers]
    · rw [if_neg (by simpa using covers), Option.map_some, SentClaim.yield, if_neg covers, ← sent]

theorem SentClaim.foldl_yield (l : List Nat) (c : SentClaim) : l.foldl SentClaim.yield c
    = { c with
      yielded := (l.filter (fun x => c.first ≤ x && x < c.first + c.count)).foldl (fun l x => insertAsc x l) c.yielded } := by
  induction l generalizing c with
  | nil => rfl
  | cons x l ih =>
    rw [List.foldl_cons, ih]
    by_cases covers : c.first ≤ x ∧ x < c.first + c.count <;> simp [SentClaim.yield, covers]

theorem Invoice.foldl_yield (l : List Nat) (r : Invoice) :
    l.foldl Invoice.yield r = { r with sent := r.sent.map (fun c => l.foldl SentClaim.yield c) } := by
  induction l generalizing r with
  | nil => simp
  | cons x l ih =>
    rw [List.foldl_cons, ih, r.yield_eq]
    simp [Function.comp_def]

/-- The record after a CLAIM heard, before the sender joins (R58). -/
def Invoice.hearClaim (r : Invoice) (first count : Nat) : Invoice :=
  (({ r with high := max r.high (first + count - 1) } : Invoice).giveUp first count).yieldRange first count

theorem Invoice.hearClaim_eq (r : Invoice) (first count : Nat) {kept : List Nat}
    (hkept : kept = r.free.filter (fun x => x < first || first + count ≤ x)) : r.hearClaim first count = { r with
      free := kept
      high := max r.high (first + count - 1)
      surrendered := if r.state = .closing ∨ r.state = .closed then r.surrendered + (r.free.length - kept.length)
        else r.surrendered
      sent := r.sent.map (fun c => { c with
        yielded := ((List.range' first count).filter (fun x => c.first ≤ x && x < c.first + c.count)).foldl
          (fun l x => insertAsc x l) c.yielded }) } := by
  have outside : r.free.filter (fun x => !(first ≤ x && x < first + count)) = kept := by
    rw [hkept]
    refine List.filter_congr fun x _ => ?_
    rw [Bool.eq_iff_iff]
    simp
  have counted : (if r.state.isOpen then r.surrendered else r.surrendered + (r.free.length - kept.length))
      = if r.state = .closing ∨ r.state = .closed then r.surrendered + (r.free.length - kept.length)
        else r.surrendered := by cases r.state <;> rfl
  simp only [Invoice.hearClaim, Invoice.giveUp, Invoice.yieldRange, Invoice.foldl_yield, SentClaim.foldl_yield, outside,
    counted]

/-! ### The rewrite of a CLAIM never sent (R29) -/

theorem TxEntry.neverSent_iff (n : Nat) (e : TxEntry) : e.neverSent n = true
    ↔ e.frame.kind = 4 ∧ e.frame.invoice = n ∧ e.attempts = 0 ∧ e.removal = .none := by
  simp [TxEntry.neverSent, TxEntry.isClaimOf, and_assoc]

namespace Books

variable {b : Books} {n : Nat}

theorem applyRemoved_unattempted (b : Books) (fill : Option Nat) {e : TxEntry} (unattempted : e.attempts = 0) :
    b.applyRemoved fill e = b := by
  unfold applyRemoved
  cases e.frame <;> simp [unattempted]

theorem foldl_applyRemoved_unattempted (fill : Option Nat) {l : List TxEntry} (unattempted : ∀ e ∈ l, e.attempts = 0)
    (b : Books) : l.foldl (applyRemoved fill) b = b := by
  induction l with
  | nil => rfl
  | cons e l ih =>
    rw [List.foldl_cons, b.applyRemoved_unattempted fill (unattempted e List.mem_cons_self)]
    exact ih fun x hx => unattempted x (List.mem_cons_of_mem e hx)

/-- A CLAIM never sent is removed with nothing applied; one under way is marked to leave (R29, R30). -/
theorem removeEntries_neverSent (b : Books) (fill : Option Nat) (n : Nat) :
    b.removeEntries fill .apply (TxEntry.neverSent n) = { b with
      tx := (b.tx.filter (fun e => !(e.neverSent n && !e.underWay))).map
        (fun e => if e.neverSent n then { e with removal := .apply } else e) } := by
  have unsent : ∀ e ∈ b.tx.filter (fun e => e.neverSent n && !e.underWay), e.attempts = 0 := fun e he => by
    obtain ⟨-, gone⟩ := List.mem_filter.1 he
    rw [Bool.and_eq_true, TxEntry.neverSent_iff] at gone
    obtain ⟨⟨-, -, attempts, -⟩, -⟩ := gone
    exact attempts
  have marks : ∀ e : TxEntry, (e.neverSent n && (e.removal = .none || Removal.apply = .discard)) = e.neverSent n :=
    fun e => by simp [TxEntry.neverSent]
  simp only [removeEntries, if_true, foldl_applyRemoved_unattempted fill unsent, marks]

theorem unfree_eq (k : Nat) (r : Invoice) : unfree k r = { r with
    free := r.free.filter (fun x => x ≠ k)
    sent := r.sent.map (fun c => c.yield k) } := Invoice.yield_eq _ k

section Rewrite
variable {r : Invoice} (found : b.invoice? n = some r)
include found

/-- The rewrite, by whether a CLAIM waits that was never sent, and whether a serial is left to claim. -/
theorem rewriteClaim_eq : b.rewriteClaim n
    = if ∃ e ∈ b.tx, e.neverSent n = true then
        if r.ceiling ≤ r.high then
          (b.removeEntries none .apply (TxEntry.neverSent n)).raiseNotice .serialsExhausted (some n) none none
        else { b with tx := b.tx.map (fun e => if e.neverSent n
          then { e with frame := .claim n r.planned (r.high + 1) (b.claimCount r) } else e) }
      else b := by
  simp [rewriteClaim, found]

/-! ### The free list once serials have left it (R58, R60) -/

theorem freeOf_of_found : b.freeOf n = r.free := by simp [freeOf, found]

theorem invoice?_changed {f : Invoice → Invoice} (number : ∀ q, (f q).number = q.number) :
    (b.modifyInvoice n f).invoice? n = some (f r) := by
  rw [b.invoice?_modifyInvoice n n number, if_pos rfl, found]
  rfl

section Alone
variable (alone : ∀ x ∈ b.invoices, x.number = n → x = r)
include alone

/-- A CLAIM heard for the one record under its number (R58). -/
theorem heardClaim_eq (fill : Option Nat) (sender planned first count : Nat) {c : Books}
    (hc : c = (((b.modifyInvoice n (fun _ => r.hearClaim first count)).joinParticipants n sender).comparePlan
      fill n planned).rewriteClaim n) : b.heardClaim fill sender n planned first count
      = if r.free ≠ [] ∧ (r.hearClaim first count).free = [] ∧ fill = some n then c.claimCheck n else c := by
  have number : ∀ q : Invoice, (q.hearClaim first count).number = q.number := fun q => (yieldRange_number_free _ _).1
  have changed : b.modifyInvoice n (fun q => q.hearClaim first count)
      = b.modifyInvoice n (fun _ => r.hearClaim first count) :=
    modifyInvoice_congr fun q hq same => by rw [alone q hq same]
  have left := freeOf_of_found (invoice?_changed found number)
  rw [hc, ← changed, ← left, ← freeOf_of_found found]
  simp only [heardClaim, Bool.and_eq_true, decide_eq_true_eq, and_assoc]
  rfl

/-- A serial heard in use, for the one record under its number (R60). -/
theorem heardSerial_of_alone (fill : Option Nat) (k : Nat) {c : Books}
    (hc : c = if r.high < k
      then (b.modifyInvoice n (fun _ => { unfree k r with high := max r.high k })).rewriteClaim n
      else b.modifyInvoice n (fun _ => { unfree k r with high := max r.high k })) : b.heardSerial fill n k
      = if r.free ≠ [] ∧ c.freeOf n = [] ∧ fill = some n then c.claimCheck n else c := by
  have number : ∀ q, (unfree k q).number = q.number := fun q => (unfree_thins k q).number
  have high : (unfree k r).high = r.high := (unfree_thins k r).high
  have raised : (b.modifyInvoice n (unfree k)).raiseHigh n k = c := by
    rw [raiseHigh_eq (invoice?_changed found number), high, hc]
    split
    · next below =>
      rw [modifyInvoice_modifyInvoice b n number]
      congr 1
      refine modifyInvoice_congr fun q hq same => ?_
      rw [alone q hq same, max_eq_right (by omega)]
    · next covered =>
      refine modifyInvoice_congr fun q hq same => ?_
      rw [alone q hq same, max_eq_left (by omega), ← high]
  rw [heardSerial_eq, raised, freeOf_of_found found]
  simp only [claimCheckIfEmptied, Bool.and_eq_true, decide_eq_true_eq, and_assoc]

end Alone

end Rewrite

end Books

/-! ### O39 -/

theorem exec_claimFrame (q : Sender) (n : BitVec 16) (m k v : Byte) (s : State) : exec (.claimFrame q n m k v) s
    = .next (s.receive q (.claim n.toNat m.toNat k.toNat v.toNat)
      (·.heardClaim s.filling q.number.toNat n.toNat m.toNat k.toNat v.toNat)) := rfl

theorem claimFrame_acts {s : State} {q : Sender} {m k v : Byte} {n : BitVec 16}
    (taken : s.takes q (.claim n.toNat m.toNat k.toNat v.toNat)) : exec (.claimFrame q n m k v) s
      = .next (s.took q ((if s.books.hasInvoice n.toNat
        then s.books.heardClaim s.filling q.number.toNat n.toNat m.toNat k.toNat v.toNat
        else s.books).setRepeat q.number.toNat none)) := by
  rw [exec_claimFrame, State.receive_takes taken, Books.passes_filtered _ rfl]
  rfl

/-- Settles O39: a CLAIM heard, the rewrite or removal of a CLAIM never sent, and a serial heard in use. -/
theorem heardClaimAndSerial : Obligations.HeardClaimAndSerial := by
  refine ⟨fun s q m k v n taken => ⟨_, claimFrame_acts taken, fun absent => if_neg (Books.hasInvoice_of_none absent),
      fun r found kept hkept r' b₁ free high surrendered sent same alone hb => ?_⟩,
    fun b n r found => ?_, fun b fill n k r found alone r' b₁ hr hb => ?_⟩
  · have heard : r' = r.hearClaim k.toNat v.toNat := by
      rw [r.hearClaim_eq _ _ hkept, same, free, high, surrendered, sent]
    rw [if_pos (Books.hasInvoice_of_some found), ← free, heard]
    exact Books.heardClaim_eq found alone s.filling q.number.toNat m.toNat k.toNat v.toNat (heard ▸ hb)
  · have rewritten := Books.rewriteClaim_eq found
    rw [Books.removeEntries_neverSent] at rewritten
    simp only [TxEntry.neverSent_iff] at rewritten
    refine ⟨fun none => ?_, fun waiting left => ?_, fun waiting exhausted => ?_⟩
    · rw [rewritten, if_neg (by simpa using none)]
    · rw [rewritten, if_pos waiting, if_neg (by omega)]
      rfl
    · rw [rewritten, if_pos waiting, if_pos exhausted]
      congr 4
      funext e
      rw [Bool.eq_iff_iff, decide_eq_true_eq, ← TxEntry.neverSent_iff]
      cases e.underWay <;> simp
  · have heard : r' = { Books.unfree k r with high := max r.high k } := by
      rw [hr, Books.unfree_eq]
      rfl
    exact Books.heardSerial_of_alone found alone fill k (heard ▸ hb)

end Sys2Proof.Machine
end

section
/-! PROOFS. The Bin Table: the actions of BIN frames, and the draws that lower a bin (R69 to R72, R76, R77; O53, O54). -/

namespace Sys2Proof.Machine

namespace Books

variable {b : Books} {n : Nat}

/-! ### A bin's record replaced (R69) -/

theorem bin_setBin_self (b : Books) (low : 1 ≤ n) (up : n ≤ 64) (r : Bin) : (b.setBin n r).bin n = r := by
  rw [setBin, if_neg (by omega), bin, Vector.getElem?_setIfInBounds_self_of_lt (by omega)]
  rfl

theorem bin_setBin_other (b : Books) {k : Nat} (low : 1 ≤ n) (present : 1 ≤ k) (other : k ≠ n) (r : Bin) :
    (b.setBin n r).bin k = b.bin k := by
  rw [setBin, if_neg (by omega), bin, Vector.getElem?_setIfInBounds_ne (by omega)]
  rfl

theorem setBin_frame (b : Books) (n : Nat) (r : Bin) : b.setBin n r = { b with bins := (b.setBin n r).bins } := by
  unfold setBin
  split <;> rfl

theorem Kept.lowThreshold {c : Books} (kept : b.Kept c) : c.lowThreshold = b.lowThreshold := by
  simp only [Books.lowThreshold, kept.settings]

/-! ### The actions (R71, R72) -/

theorem fillBin_below {q : Nat} (low : q < b.lowThreshold) (m : Nat) : b.fillBin n m q
    = (b.setBin n { state := .low, batch := some m, remaining := some q, overdraw := (b.bin n).overdraw }).raiseNotice
      .binLow none none (some n) := by simp [fillBin, low]

theorem fillBin_enough {q : Nat} (enough : b.lowThreshold ≤ q) (m : Nat) : b.fillBin n m q
    = b.setBin n { state := .stocked, batch := some m, remaining := some q, overdraw := (b.bin n).overdraw } := by
  simp [fillBin, Nat.not_lt.2 enough]

theorem emptyBin_eq (b : Books) (n m : Nat) : b.emptyBin n m
    = if (b.bin n).state = .unknown
      then b.setBin n { state := .empty, batch := some m, remaining := some 0, overdraw := (b.bin n).overdraw }
      else b.setBin n { b.bin n with state := .empty, remaining := some 0 } := by
  unfold emptyBin Bin.batchAfter
  split <;> rfl

theorem withdrawBin_eq (b : Books) (n m q : Nat) : b.withdrawBin n m q
    = if (b.bin n).state = .unknown
      then b.setBin n { state := .withdrawn, batch := some m, remaining := some q, overdraw := (b.bin n).overdraw }
      else b.setBin n { b.bin n with state := .withdrawn } := by
  unfold withdrawBin Bin.batchAfter
  split <;> rfl

/-! ### Draws (R76, R77) -/

/-- The three ways a draw acts (R76): not at all; on a bin that is counted; and on a STOCKED bin, which may go LOW. -/
theorem draw_idle {d : Nat} (idle : d = 0 ∨ (b.bin n).state = .unknown ∨ (b.bin n).state = .empty) :
    b.draw ⟨n, d⟩ = b := by
  rcases idle with zero | state | state
  · exact if_pos zero
  · simp [draw, state]
  · simp [draw, state]

theorem draw_counted {d : Nat} (positive : 1 ≤ d) (state : (b.bin n).state = .low ∨ (b.bin n).state = .withdrawn) :
    b.draw ⟨n, d⟩ = b.lowerBin n d := by
  have nonzero : d ≠ 0 := by omega
  rcases state with state | state <;> simp [draw, nonzero, state]

theorem draw_stocked {d : Nat} (positive : 1 ≤ d) (state : (b.bin n).state = .stocked) :
    b.draw ⟨n, d⟩ = (b.lowerBin n d).enterLow n := by
  have nonzero : d ≠ 0 := by omega
  simp [draw, nonzero, state]

end Books

/-- A bin that holds `R` is lowered by `d`, and what it lacks joins its overdraw total (R77). -/
theorem Bin.lowered_eq {r : Bin} {R : Nat} (holds : r.remaining = some R) (d : Nat) : r.lowered d
    = { r with remaining := some (if d ≤ R then R - d else 0),
               overdraw := if d ≤ R then min 65535 r.overdraw else min 65535 (r.overdraw + (d - R)) } := by
  simp only [Bin.lowered, holds, Option.getD_some]
  split
  · next covered => rw [Nat.sub_eq_zero_of_le covered, Nat.add_zero]
  · next short => rw [Nat.sub_eq_zero_of_le (by omega : R ≤ d)]

namespace Books

variable {b : Books} {n : Nat}

theorem lowerBin_eq {R : Nat} (holds : (b.bin n).remaining = some R) (d : Nat) : b.lowerBin n d
    = if d ≤ R then b.setBin n ((b.bin n).lowered d)
      else (b.setBin n ((b.bin n).lowered d)).raiseFault .binOverdraw := by
  unfold lowerBin
  rw [holds, Option.getD_some]
  split
  · next short => rw [if_neg (by omega)]
  · next covered => rw [if_pos (by omega)]

theorem bin_lowerBin (b : Books) (low : 1 ≤ n) (up : n ≤ 64) (d : Nat) :
    (b.lowerBin n d).bin n = (b.bin n).lowered d := by
  unfold lowerBin
  dsimp only
  split
  · exact b.bin_setBin_self low up _
  · exact b.bin_setBin_self low up _

/-- A STOCKED bin after a draw: it goes LOW, with BIN_LOW, when it is left below the threshold (R70, R76). -/
theorem enterLow_lowerBin (low : 1 ≤ n) (up : n ≤ 64) (d : Nat) {r : Bin} (lowered : (b.bin n).lowered d = r) {v : Nat}
    (left : r.remaining = some v) : (b.lowerBin n d).enterLow n
      = if v < b.lowThreshold then
          ((b.lowerBin n d).setBin n { r with state := .low }).raiseNotice .binLow none none (some n)
        else b.lowerBin n d := by
  have here : (b.lowerBin n d).bin n = r := (b.bin_lowerBin low up d).trans lowered
  have held : r.remaining.getD 0 = v := by rw [left, Option.getD_some]
  rw [enterLow, (b.kept_lowerBin n d).lowThreshold, here, held]

end Books

/-! ### O53 -/

/-- Settles O53: each action by the bin's record, and the table around the bin. -/
theorem binActionsSetTheRecord : Obligations.BinActionsSetTheRecord := by
  intro b n m q low up
  refine ⟨fun below => Books.fillBin_below below m, fun enough => Books.fillBin_enough enough m,
    fun unknown => ⟨?_, ?_⟩, fun known => ⟨?_, ?_⟩,
    fun r => ⟨b.bin_setBin_self low up r, fun k present other => b.bin_setBin_other low present other r,
      b.setBin_frame n r⟩⟩
  · exact (b.emptyBin_eq n m).trans (if_pos unknown)
  · exact (b.withdrawBin_eq n m q).trans (if_pos unknown)
  · exact (b.emptyBin_eq n m).trans (if_neg known)
  · exact (b.withdrawBin_eq n m q).trans (if_neg known)

/-! ### O54 -/

/-- Settles O54: what a draw leaves in the bin, and whether that is below the threshold. -/
theorem drawsLowerTheBins : Obligations.DrawsLowerTheBins := by
  refine fun b n d low up => ⟨Books.draw_idle, fun R r c positive holds hr hc => ?_⟩
  have lowered : (b.bin n).lowered d = r := (Bin.lowered_eq holds d).trans hr.symm
  have drawn : b.lowerBin n d = c := by rw [Books.lowerBin_eq holds, lowered, hc]
  have entered := Books.enterLow_lowerBin low up d lowered (congrArg Bin.remaining hr)
  rw [drawn] at entered
  refine ⟨fun state => (Books.draw_counted positive state).trans drawn, fun state enough => ?_, fun state short => ?_⟩
  · rw [Books.draw_stocked positive state, drawn, entered, if_neg (by omega)]
  · rw [Books.draw_stocked positive state, drawn, entered, if_pos short]

end Sys2Proof.Machine
end

section
/-! PROOFS. BIN FILL, BIN EMPTY and BIN WITHDRAW: the range of the bin, and the BIN frame made of its record (R74; O23). -/

namespace Sys2Proof.Machine

theorem exec_binFill (p : Params) (s : State) : exec (.binFill p) s = .next (s.hostCommand 0x30 p noData (fun t =>
    t.binBody (byteAt p.stated 0) 1 (fun _ => num2 p.stated 1) (fun _ => num2 p.stated 3))) := rfl

theorem exec_binEmpty (p : Params) (s : State) : exec (.binEmpty p) s = .next (s.hostCommand 0x31 p noData (fun t =>
    t.binBody (byteAt p.stated 0) 2 (fun r => r.batch.getD 0) (fun _ => 0))) := rfl

theorem exec_binWithdraw (p : Params) (s : State) : exec (.binWithdraw p) s = .next (s.hostCommand 0x32 p noData (fun t =>
    t.binBody (byteAt p.stated 0) 3 (fun r => r.batch.getD 0) (fun r => r.remaining.getD 0))) := rfl

/-- A bin command past R174's first four checks: the range of the bin, then one BIN frame, filled from the record of the
moment (R74). -/
theorem State.hostCommand_binBody {s : State} {code : Byte} {p : Params} (admitted : s.admits code p) (n action : Nat)
    (batch quantity : Bin → Nat) :
    s.hostCommand code p noData (fun t => t.binBody n action batch quantity)
      = if 1 ≤ n ∧ n ≤ 64 then
          { s with books := s.books.queueFrame none
                     (.bin 0 n action (batch (s.books.bin n)) (quantity (s.books.bin n))),
                   port := s.answered code p .ok [] }
        else s.answers code p .range [] := by
  rw [State.hostCommand_admits admitted]
  unfold State.binBody
  simp only [inside_iff]
  split <;> rfl

/-- Settles O23: the three commands by their code, action and fields, with one body. -/
theorem binCommandsQueueOneFrame : Obligations.BinCommandsQueueOneFrame := by
  rintro p s n rfl
  refine ⟨fun outside => ?_, fun low up => ?_⟩
  · have refused : ¬ (1 ≤ byteAt p.stated 0 ∧ byteAt p.stated 0 ≤ 64) := by omega
    refine ⟨fun admitted => ?_, fun admitted => ?_, fun admitted => ?_⟩
    · rw [exec_binFill, State.hostCommand_binBody admitted, if_neg refused]
    · rw [exec_binEmpty, State.hostCommand_binBody admitted, if_neg refused]
    · rw [exec_binWithdraw, State.hostCommand_binBody admitted, if_neg refused]
  · refine ⟨fun admitted => ?_, fun admitted => ?_, fun admitted => ?_⟩
    · rw [exec_binFill, State.hostCommand_binBody admitted, if_pos ⟨low, up⟩]
    · rw [exec_binEmpty, State.hostCommand_binBody admitted, if_pos ⟨low, up⟩]
    · rw [exec_binWithdraw, State.hostCommand_binBody admitted, if_pos ⟨low, up⟩]

end Sys2Proof.Machine
end

section
/-! PROOFS. Roundings, component targets, and adaptation (00, Rounding; R81, R109; O55). -/

namespace Sys2Proof.Machine

/-! ### The two roundings (00, Rounding) -/

theorem roundHalfUp_eq_iff {d : Nat} (positive : 0 < d) (n q : Nat) :
    roundHalfUp n d = q ↔ 2 * d * q ≤ 2 * n + d ∧ 2 * n + d < 2 * d * (q + 1) := by
  rw [roundHalfUp, Nat.div_eq_iff (by omega), Nat.mul_comm q, Nat.mul_succ]
  omega

/-- Half away from zero is half up of the absolute value, with the sign put back. -/
theorem roundHalfAway_eq (n : Int) (d : Nat) :
    roundHalfAway n d = if n < 0 then -((2 * -n + d) / (2 * d)) else (2 * n + d) / (2 * d) := by
  unfold roundHalfAway
  split
  · next negative => push_cast; rw [abs_of_neg negative]
  · next nonneg => push_cast; rw [abs_of_nonneg (not_lt.1 nonneg)]

theorem roundHalfAway_eq_iff_of_nonneg {n : Int} (nonneg : 0 ≤ n) {d : Nat} (positive : 0 < d) (q : Int) :
    roundHalfAway n d = q ↔ 2 * d * q - d ≤ 2 * n ∧ 2 * n < 2 * d * q + d := by
  rw [roundHalfAway_eq, if_neg (by omega), Int.ediv_eq_iff_of_pos (by omega), Int.mul_comm q]
  omega

theorem roundHalfAway_eq_iff_of_neg {n : Int} (negative : n < 0) {d : Nat} (positive : 0 < d) (q : Int) :
    roundHalfAway n d = q ↔ 2 * d * q - d < 2 * n ∧ 2 * n ≤ 2 * d * q + d := by
  rw [roundHalfAway_eq, if_pos negative, neg_eq_iff_eq_neg, Int.ediv_eq_iff_of_pos (by omega), Int.neg_mul,
    Int.mul_comm q]
  omega

/-! ### Component targets (R81) -/

/-- Every component but the last takes its floor, and the last what those leave. -/
theorem targetsFrom_append_singleton (T left : Nat) (l : List Component) (c : Component) :
    targetsFrom T left (l ++ [c])
      = l.map (fun x => T * x.share / 1000) ++ [left - (l.map (fun x => T * x.share / 1000)).sum] := by
  induction l generalizing left with
  | nil => rfl
  | cons x l ih =>
    have first : targetsFrom T left (x :: (l ++ [c]))
        = T * x.share / 1000 :: targetsFrom T (left - T * x.share / 1000) (l ++ [c]) := by cases l <;> rfl
    rw [List.cons_append, first, ih, List.map_cons, List.cons_append, List.sum_cons, Nat.sub_sub]

/-- The floors of shares of `T` are together at most the share that the shares make. -/
theorem sum_floors_le (T : Nat) (l : List Component) :
    (l.map (fun x => T * x.share / 1000)).sum ≤ T * (l.map (·.share)).sum / 1000 := by
  induction l with
  | nil => simp
  | cons x l ih =>
    simp only [List.map_cons, List.sum_cons, Nat.mul_add]
    omega

theorem sum_floors_le_target {T : Nat} {l : List Component} (shares : (l.map (·.share)).sum ≤ 1000) :
    (l.map (fun x => T * x.share / 1000)).sum ≤ T :=
  calc (l.map (fun x => T * x.share / 1000)).sum
    _ ≤ T * (l.map (·.share)).sum / 1000 := sum_floors_le T l
    _ ≤ T * 1000 / 1000 := Nat.div_le_div_right (Nat.mul_le_mul_left T shares)
    _ = T := Nat.mul_div_cancel T (by decide)

/-! ### Adaptation (R109) -/

/-- A quarter of an error, by its residue: half an unit goes away from zero. -/
theorem roundHalfAway_quarter {e q : Int}
    (quarter : 4 * q = e ∨ 4 * q - 1 = e ∨ 4 * q + 1 = e ∨ (4 * q - 2 = e ∧ 0 < e) ∨ (4 * q + 2 = e ∧ e < 0)) :
    roundHalfAway e 4 = q := by
  rcases lt_or_ge e 0 with negative | nonneg
  · rw [roundHalfAway_eq_iff_of_neg negative (by decide)]
    omega
  · rw [roundHalfAway_eq_iff_of_nonneg nonneg (by decide)]
    omega

theorem adapted_cast (v : Nat) (e : Int) : (adapted v e : Int) = max 0 (min 300 ((v : Int) + roundHalfAway e 4)) :=
  Int.toNat_of_nonneg (le_max_left ..)

/-! ### O55 -/

/-- Settles O55: the targets by the floors, adaptation by the quarter, and each rounding by its bounds. -/
theorem targetsSumAndAdaptationIsBounded : Obligations.TargetsSumAndAdaptationIsBounded := by
  refine ⟨fun T l c shares => ?_, fun v e => ⟨State.adapted_le v e, fun q quarter => ?_⟩,
    fun n d q positive => roundHalfUp_eq_iff positive n q,
    fun n d q positive => ⟨fun nonneg => roundHalfAway_eq_iff_of_nonneg nonneg positive q,
      fun negative => roundHalfAway_eq_iff_of_neg negative positive q⟩⟩
  · have split := targetsFrom_append_singleton T T l c
    have within : (l.map (·.share)).sum ≤ 1000 := by
      rw [List.map_append, List.sum_append] at shares
      omega
    have floors := sum_floors_le_target (T := T) within
    refine ⟨split, ?_⟩
    rw [targets, split, List.sum_append, List.sum_singleton]
    omega
  · rw [adapted_cast, roundHalfAway_quarter quarter]

end Sys2Proof.Machine
end

section
/-! PROOFS. BIN and CHEST heard: the draws, the record under the serial, and the repeat memory (R32, R33, R73, R75, R141,
R142; O37). -/

namespace Sys2Proof.Machine

namespace Books

variable {b : Books} {n : Nat}

/-! ### The repeat memory (R32) -/

theorem repeat?_setRepeat_self {q : Nat} (low : 1 ≤ q) (up : q ≤ 31) (other : q ≠ b.straps.station)
    (r : Option Repeat) : (b.setRepeat q r).repeat? q = r := by
  rw [setRepeat, if_neg (by simp [other]; omega), repeat?, Vector.getElem?_setIfInBounds_self_of_lt (by omega)]
  rfl

theorem repeat?_setRepeat_other (b : Books) {q k : Nat} (other : k ≠ q) (low : 1 ≤ k) (r : Option Repeat) :
    (b.setRepeat q r).repeat? k = b.repeat? k := by
  unfold setRepeat
  split
  · rfl
  · next stranger =>
    have sender : q ≠ 0 := by rintro rfl; simp at stranger
    rw [repeat?, Vector.getElem?_setIfInBounds_ne (by omega)]
    rfl

/-! ### The draws of a CHEST (R33, R75) -/

theorem invoice?_drawAll (b : Books) (ds : List Draw) (n : Nat) : (b.drawAll ds).invoice? n = b.invoice? n := by
  have invoices : (b.drawAll ds).invoices = b.invoices := congrArg Prod.fst (b.drawAll_ledger ds)
  rw [invoice?, invoices, invoice?]

/-- A CHEST heard, whatever its invoice's record: the Chest Store's part comes after the draws, and looks at the record as
it stood before them. -/
theorem heardReport_eq {fill : Option Nat} {sender : Nat} {r : ChestReport} {again : Bool} {c : Books}
    (hagain : again = decide (b.repeat? sender = some ⟨n, r⟩))
    (hc : c = if again then b else r.draws.foldl draw b) :
    c.invoice? n = b.invoice? n ∧ b.heardReport fill sender n r = c.heardChest fill sender n r again := by
  subst hagain hc
  refine ⟨?_, rfl⟩
  split
  · rfl
  · exact b.invoice?_drawAll r.draws n

/-! ### The Chest Store's part (R60, R141, R142) -/

theorem heardChest_absent (absent : b.invoice? n = none) (fill : Option Nat) (sender : Nat) (r : ChestReport)
    (again : Bool) : b.heardChest fill sender n r again = b := by simp [heardChest, absent]

theorem heardChest_found {v : Invoice} (found : b.invoice? n = some v) (fill : Option Nat) (sender : Nat)
    (r : ChestReport) (again : Bool) : b.heardChest fill sender n r again
      = if r.serial = 0 then b.joinParticipants n sender
        else if v.state = .closed then (b.joinParticipants n sender).heardSerial fill n r.serial
        else ((b.joinParticipants n sender).storeHeard sender n r again).heardSerial fill n r.serial := by
  simp only [heardChest, found]
  split
  · rfl
  · split <;> rfl

theorem roomForHeard_iff (b : Books) :
    b.roomForHeard = true ↔ b.freeSlots ≥ 2 ∨ (b.freeSlots = 1 ∧ b.reservation ≠ none) := by
  unfold roomForHeard
  cases b.reservation <;> simp
  omega

end Books

theorem Chest.sameContent_iff (c d : Chest) : c.sameContent d = true
    ↔ c.gross = d.gross ∧ c.tare = d.tare ∧ c.net = d.net ∧ c.offBlend = d.offBlend ∧ c.draws = d.draws := by
  simp [Chest.sameContent, and_assoc]

namespace Books

section StoreHeard
variable {b : Books} {sender n : Nat} {r : ChestReport} {again : Bool}

/-- No record under the key: one is made where a slot is left, the reserved one apart (R142). -/
theorem storeHeard_new (absent : b.chest? n r.serial = none) : b.storeHeard sender n r again
    = if b.freeSlots ≥ 2 ∨ (b.freeSlots = 1 ∧ b.reservation ≠ none)
      then (b.putChest (heardRecord sender n r)).evalFull n
      else (b.modifyInvoice n (fun v => { v with view := .short })).raiseFault .storeFull := by
  simp only [storeHeard, absent, makeHeard, roomForHeard_iff]
  rfl

variable {o : Chest} (found : b.chest? n r.serial = some o)
include found

/-- A record of the sender's own: kept or replaced (R141). -/
theorem storeHeard_again (heard : o.origin = .heard) (station : o.station = sender) : b.storeHeard sender n r again
    = if o.sameContent (heardRecord sender n r) then b else b.putChest (heardRecord sender n r) := by
  simp [storeHeard, found, heard, station]

/-- A record of another's under the serial: the conflict is marked, and told once (R141). -/
theorem storeHeard_conflict (other : o.origin = .own ∨ o.station ≠ sender) : b.storeHeard sender n r again
    = if again then b.putChest { o with conflict := some sender }
      else (b.putChest { o with conflict := some sender }).raiseNotice .serialConflict (some n) (some r.serial)
        (some sender) := by
  have foreign : (decide (o.origin = .heard) && decide (o.station = sender)) = false := by
    rcases other with own | station
    · simp [own]
    · simp [station]
  simp only [storeHeard, found, foreign]
  rfl

end StoreHeard

end Books

/-! ### The two rows of frames heard (R19, R73, R75) -/

theorem exec_binFrame (q : Sender) (k a : Byte) (n m v : BitVec 16) (s : State) : exec (.binFrame q n k a m v) s
    = .next (s.receive q (.bin n.toNat k.toNat a.toNat m.toNat v.toNat)
      (·.binAction k.toNat a.toNat m.toNat v.toNat)) := rfl

theorem exec_chestHeard {c : Instr} {q : Sender} {n : Nat} {r : ChestReport} (heard : heardOf c = some (q, .chest n r))
    (s : State) : exec c s = .next (s.receiveReport q n r) := by
  cases c with
  | chestFrame => cases heard; rfl
  | _ => cases heard

/-- A CHEST in range has the 1 to 4 draws that framing needs (R6, R14). -/
theorem Frame.draws_of_inRange {sender n : Nat} {r : ChestReport} (range : Frame.inRange sender (.chest n r) = true) :
    1 ≤ r.draws.length ∧ r.draws.length ≤ 4 := by
  have body := Frame.bodyInRange_of_inRange range
  simp only [Frame.bodyInRange, ChestReport.inRange, Bool.and_eq_true, inside_iff] at body
  obtain ⟨⟨⟨-, count⟩, -⟩, -⟩ := body
  exact count

/-- A CHEST taken is handed on whether its invoice is in the table or not, and is remembered (R19, R32). -/
theorem chestHeard_acts {s : State} {c : Instr} {q : Sender} {n : Nat} {r : ChestReport}
    (heard : heardOf c = some (q, .chest n r)) (taken : s.takes q (.chest n r)) :
    exec c s = .next (s.took q
      ((s.books.heardReport s.filling q.number.toNat n r).setRepeat q.number.toNat (some ⟨n, r⟩))) := by
  have ⟨_, _, range, _⟩ := taken
  rw [exec_chestHeard heard, State.receiveReport, if_pos (inside_iff.2 (Frame.draws_of_inRange range)),
    State.receive_takes taken]
  rfl

/-! ### O37 -/

/-- Settles O37: a BIN and a CHEST heard, the Chest Store's part by the record under the key, and the repeat memory. -/
theorem heardBinAndChest : Obligations.HeardBinAndChest := by
  refine ⟨fun s q k a n m v taken => ?_, fun s c q n r again b heard taken hagain hb => ?_,
    fun b q n r again c hc => ⟨fun absent => ?_, fun o found => ⟨fun origin station => ?_, fun other => ?_⟩⟩,
    fun b q k r low up other => ⟨Books.repeat?_setRepeat_self low up other r,
      fun apart present => b.repeat?_setRepeat_other apart present r⟩⟩
  · rw [exec_binFrame, State.receive_takes taken]
    rfl
  · obtain ⟨same, report⟩ := Books.heardReport_eq (fill := s.filling) hagain hb
    refine ⟨_, chestHeard_acts heard taken, fun absent => ?_, fun v found => ?_⟩
    · rw [report, Books.heardChest_absent (same.trans absent)]
    · rw [report, Books.heardChest_found (same.trans found)]
      refine ⟨fun reject => if_pos reject, fun serial closed => ?_, fun serial isOpen => ?_⟩
      · rw [if_neg serial, if_pos closed]
      · rw [if_neg serial, if_neg isOpen]
  · have new := Books.storeHeard_new (sender := q) (again := again) absent
    refine ⟨fun room => ?_, fun full => ?_⟩
    · rw [new, if_pos room, hc]
      rfl
    · rw [new, if_neg]
      rintro (two | ⟨one, reserved⟩)
      · omega
      · rcases full with noSlot | ⟨-, unreserved⟩
        · omega
        · exact reserved unreserved
  · have record : heardRecord q n r = c := hc.symm
    have kept := Books.storeHeard_again (again := again) found origin station
    rw [record] at kept
    simp only [Chest.sameContent_iff] at kept
    refine ⟨fun gross tare net offBlend draws => ?_, fun differs => ?_⟩
    · rw [kept, if_pos ⟨gross, tare, net, offBlend, draws⟩]
    · rw [kept, if_neg (by tauto)]
  · exact Books.storeHeard_conflict found other

end Sys2Proof.Machine
end

section
/-! PROOFS. The passing of station time, how far off each timed moment is, and the step with no command waiting (00,
Conventions; O2). -/

namespace Sys2Proof.Machine

/-! ### What passes with time (R95, R106, R117, R173) -/

theorem Gate.isOpen_iff (g : Gate) : g.isOpen = true ↔ g ≠ .closed := by cases g <;> simp [Gate.isOpen]

theorem Weigh.running_iff (w : Weigh) : w.running = true ↔ w.request ≠ none ∧ w.steady = true := by
  simp [Weigh.running, Option.isSome_iff_ne_none]

namespace State

theorem elapse_filler (s : State) (d : Nat) : (s.elapse d).filler = { s.filler with
    flow := if s.filler.gate = .closed then s.filler.flow
      else s.filler.flow.map (fun w => ⟨w.reference, min 1500 (w.timer + d)⟩),
    rejectTimer := if s.filler.step = .reject ∧ s.pins.hold = false then min 200 (s.filler.rejectTimer + d)
      else s.filler.rejectTimer } := by
  simp only [elapse, Gate.isOpen_iff, Bool.and_eq_true, decide_eq_true_iff, Bool.not_eq_true', ne_eq, ite_not]

theorem elapse_weigh (s : State) (d : Nat) : (s.elapse d).weigh = { s.weigh with
    timer := if s.weigh.request ≠ none ∧ s.weigh.steady = true then min s.weigh.settleTime (s.weigh.timer + d)
      else s.weigh.timer } := by
  simp only [elapse, Weigh.running_iff]

/-- The line, the head, the pins, the queue and the free values stand still while time passes. -/
theorem elapse_frame (s : State) (d : Nat) : s.elapse d = { s with
    books := { s.books with time := later s.books.time d }, weigh := (s.elapse d).weigh, filler := (s.elapse d).filler,
    port := if d = 0 then s.port else s.port.ripen } := rfl

end State

/-! ### When a moment is due (log 27) -/

/-- A time counts as reached once it lies less than half the range back. -/
theorem msUntil_eq_zero_iff (due now : Time) : msUntil due now = 0 ↔ (now - due).toNat < 2 ^ 31 := by
  unfold msUntil
  split
  · next reached => simp only [reached]
  · next ahead =>
    refine iff_of_false (fun zero => ahead ?_) ahead
    rw [sub_eq_zero.1 (BitVec.eq_of_toNat_eq zero : due - now = 0), BitVec.sub_self]
    decide

namespace State

theorem goodSampleIn_due_iff (s : State) : s.goodSampleIn = some 0 ↔ (s.weigh.scale.isSome
    && s.weigh.holding.any (fun h => decide ((s.books.time - (h.time + 1)).toNat < 2 ^ 31))) = true := by
  unfold goodSampleIn
  cases s.weigh.scale <;> cases s.weigh.holding <;> simp [msUntil_eq_zero_iff, later]

theorem sampleLossIn_due_iff (s : State) : s.sampleLossIn = some 0 ↔ (!s.weigh.lossFound
    && s.weigh.lastGood.any (fun t => decide ((s.books.time - (t + 50)).toNat < 2 ^ 31))) = true := by
  unfold sampleLossIn
  cases s.weigh.lastGood <;> simp [msUntil_eq_zero_iff, later]

theorem settleIn_due_iff (s : State) : s.settleIn = some 0 ↔ (s.weigh.request.isSome && s.weigh.steady
    && s.weigh.reading.isSome && decide ((s.weigh.scale.map (·.settle)).getD 0 ≤ s.weigh.timer)) = true := by
  simp [settleIn, Weigh.running, Weigh.settleTime, Nat.sub_eq_zero_iff_le]

theorem settleSlowIn_due_iff (s : State) : s.settleSlowIn = some 0 ↔ s.weigh.request.any (fun q => !q.slow
    && decide (q.who ≠ .zeroScale) && decide ((s.books.time - (q.time + 5000)).toNat < 2 ^ 31)) = true := by
  unfold settleSlowIn
  cases s.weigh.request <;> simp [msUntil_eq_zero_iff, later, and_assoc]

theorem zeroScaleIn_due_iff (s : State) : s.zeroScaleIn = some 0 ↔ s.weigh.request.any (fun q =>
    decide (q.who = .zeroScale) && decide ((s.books.time - (q.time + 5000)).toNat < 2 ^ 31)) = true := by
  unfold zeroScaleIn
  cases s.weigh.request <;> simp [msUntil_eq_zero_iff, later]

theorem noFlowIn_due_iff (s : State) : s.noFlowIn = some 0 ↔ (decide (s.filler.gate ≠ .closed)
    && s.filler.flow.any (fun w => decide (1500 ≤ w.timer))) = true := by
  unfold noFlowIn
  cases s.filler.flow <;> simp [Gate.isOpen_iff, Nat.sub_eq_zero_iff_le]

theorem rejectEndIn_due_iff (s : State) : s.rejectEndIn = some 0 ↔ (decide (s.filler.step = .reject) && !s.pins.hold
    && decide (200 ≤ s.filler.rejectTimer)) = true := by
  simp [rejectEndIn, Nat.sub_eq_zero_iff_le]

theorem censusEndIn_due_iff (s : State) (n : Nat) : s.censusEndIn n = some 0 ↔
    (s.books.invoice? n).any (fun x => match x.phase with
      | .window t => decide ((s.books.time - t).toNat < 2 ^ 31)
      | _ => false) = true := by
  unfold censusEndIn
  cases s.books.invoice? n with
  | none => simp
  | some r => cases phase : r.phase <;> simp [phase, msUntil_eq_zero_iff]

theorem closeEndIn_due_iff (s : State) (n : Nat) : s.closeEndIn n = some 0 ↔
    (s.books.round? n).any (fun x => match x.phase with
      | .window t => decide ((s.books.time - t).toNat < 2 ^ 31)
      | _ => false) = true := by
  unfold closeEndIn
  cases s.books.round? n with
  | none => simp
  | some d => cases phase : d.phase <;> simp [phase, msUntil_eq_zero_iff]

theorem extensionEndIn_due_iff (s : State) (n : Nat) : s.extensionEndIn n = some 0 ↔
    (s.books.round? n).any (fun x => match x.phase with
      | .extension t => decide ((s.books.time - t).toNat < 2 ^ 31)
      | _ => false) = true := by
  unfold extensionEndIn
  cases s.books.round? n with
  | none => simp
  | some d => cases phase : d.phase <;> simp [phase, msUntil_eq_zero_iff]

end State

/-! ### The first of a list of moments that is due (log 4) -/

/-- The first row of a list whose moment is due. -/
def firstDue (l : List (Bool × Instr)) : Option Instr := (l.find? (·.1)).map (·.2)

theorem firstDue_cons (due : Bool) (i : Instr) (l : List (Bool × Instr)) :
    firstDue ((due, i) :: l) = if due = true then some i else firstDue l := by cases due <;> rfl

theorem firstDue_append (l l' : List (Bool × Instr)) : firstDue (l ++ l') = (firstDue l).or (firstDue l') := by
  simp only [firstDue, List.find?_append, Option.map_or]

/-- Rows that the entries of a table give, each by its own key. -/
theorem firstDue_map {α : Type} (key : α → Nat) (due : Nat → Bool) (row : Nat → Instr) (l : List α) :
    firstDue (l.map (fun x => (due (key x), row (key x)))) = ((l.map key).find? due).map row := by
  simp only [firstDue, List.find?_map, Option.map_map]
  rfl

/-! ### O2 -/

namespace State

/-- The rows of the port, the Weigh Channel, the lane and the head, in the order of `dueNow`, each with whether its
moment is due. -/
def laneRows (s : State) : List (Bool × Instr) :=
  [(s.port.busy && s.port.reply.isSome, .responseReady), (s.goodSampleIn = some 0, .goodSample),
   (s.sampleLossIn = some 0, .sampleLoss), (s.settleIn = some 0, .settleComplete),
   (s.settleSlowIn = some 0, .settleSlow), (s.zeroScaleIn = some 0, .zeroScaleTimeout),
   (s.noFlowIn = some 0, .noFlow), (s.rejectEndIn = some 0, .rejectPulseEnd), (s.firingOver, .firingPulseEnd)]

def censusRows (s : State) : List (Bool × Instr) :=
  s.books.invoices.map (fun r => (s.censusEndIn r.number = some 0, .censusWindowEnd r.number))

def closeRows (s : State) : List (Bool × Instr) :=
  s.books.rounds.map (fun d => (s.closeEndIn d.invoice = some 0, .closeWindowEnd d.invoice))

def extensionRows (s : State) : List (Bool × Instr) :=
  s.books.rounds.map (fun d => (s.extensionEndIn d.invoice = some 0, .extensionEnd d.invoice))

/-- The row taken when no command waits is the first one due of the rows in their order (log 4). -/
theorem dueNow_eq {s : State} (running : s.inReset = false) :
    s.dueNow = firstDue (s.laneRows ++ s.censusRows ++ s.closeRows ++ s.extensionRows) := by
  have census := firstDue_map Invoice.number (fun n => decide (s.censusEndIn n = some 0))
    .censusWindowEnd s.books.invoices
  have close := firstDue_map Round.invoice (fun n => decide (s.closeEndIn n = some 0))
    .closeWindowEnd s.books.rounds
  have extension := firstDue_map Round.invoice (fun n => decide (s.extensionEndIn n = some 0))
    .extensionEnd s.books.rounds
  simp only [laneRows, censusRows, closeRows, extensionRows, List.cons_append, List.nil_append, firstDue_cons,
    firstDue_append, census, close, extension]
  unfold dueNow
  simp only [running, Bool.false_eq_true, if_false, decide_eq_true_iff]
  cases (s.books.invoices.map Invoice.number).find? (fun n => decide (s.censusEndIn n = some 0)) <;>
    cases (s.books.rounds.map Round.invoice).find? (fun n => decide (s.closeEndIn n = some 0)) <;> rfl

theorem dueNow_of_inReset {s : State} (reset : s.inReset = true) : s.dueNow = none := by simp [dueNow, reset]

/-- With nothing due, no response has been made that is not yet in the buffer: it would be due first (log 25). -/
theorem ripen_of_nothing_due {s : State} (running : s.inReset = false) (nothing : s.dueNow = none) :
    s.port.ripen = s.port := by
  refine Port.ripen_unmade ?_
  by_contra made
  have ready : (s.port.busy && s.port.reply.isSome) = true := by
    simpa [Option.isSome_iff_ne_none] using made
  rw [dueNow_eq running, laneRows, List.cons_append, List.cons_append, List.cons_append, firstDue_cons, if_pos ready]
    at nothing
  exact absurd nothing (by simp)

theorem step_idle {s : State} (empty : s.pending = []) : step s = s.idle := by
  unfold step
  rw [empty]

theorem idle_of_due {s : State} {i : Instr} (due : s.dueNow = some i) : s.idle = exec i s := by
  unfold idle
  rw [due]

theorem idle_of_nothing_due {s : State} (nothing : s.dueNow = none) : s.idle = .next s.idleTick := by
  unfold idle
  rw [nothing]

end State

/-- Settles O2: the list of the statement is the order in which `dueNow` looks, and with nothing due 1 ms passes. -/
theorem emptyQueueLetsTimePass : Obligations.EmptyQueueLetsTimePass := by
  refine ⟨?_, fun s empty => ?_⟩
  · rintro s _ _ rfl rfl
    cases reset : s.inReset with
    | true => exact State.dueNow_of_inReset reset
    | false =>
      simp only [State.dueNow_eq reset, State.laneRows, State.censusRows, State.closeRows, State.extensionRows,
        State.goodSampleIn_due_iff, State.sampleLossIn_due_iff, State.settleIn_due_iff, State.settleSlowIn_due_iff,
        State.zeroScaleIn_due_iff, State.noFlowIn_due_iff, State.rejectEndIn_due_iff, State.censusEndIn_due_iff,
        State.closeEndIn_due_iff, State.extensionEndIn_due_iff, Bool.decide_eq_true]
      rfl
  · rw [State.step_idle empty]
    refine ⟨fun i due => State.idle_of_due due, fun reset => ?_, fun running nothing => ?_⟩
    · rw [State.idle_of_nothing_due (State.dueNow_of_inReset reset)]
      exact congrArg Host.Outcome.next (if_pos reset)
    · refine ⟨s.elapse 1, ?_, rfl, s.elapse_weigh 1, congrArg Filler.flow (s.elapse_filler 1),
        congrArg Filler.rejectTimer (s.elapse_filler 1), rfl, ?_⟩
      · rw [State.idle_of_nothing_due nothing]
        exact congrArg Host.Outcome.next (if_neg (by simp [running]))
      · conv_lhs => rw [s.elapse_frame 1, if_neg one_ne_zero, State.ripen_of_nothing_due running nothing]
        rfl

end Sys2Proof.Machine
end

section
/-! PROOFS. ZERO SCALE, and settles as they reach their requester (R95 to R98; O22, O43). -/

namespace Sys2Proof.Machine

/-! ### A timed row at its moment (log 3) -/

theorem State.atMoment_some (s : State) (f : State → State) {wait : Option Nat} {d : Nat} (coming : wait = some d) :
    s.atMoment wait f = f (s.elapse d) := by
  rw [coming]
  rfl

theorem exec_settleComplete {s : State} {d : Nat} (wait : s.settleIn = some d) :
    exec .settleComplete s = .next (s.elapse d).completeSettle :=
  congrArg Host.Outcome.next (s.atMoment_some _ wait)

theorem exec_settleSlow {s : State} {d : Nat} (wait : s.settleSlowIn = some d) :
    exec .settleSlow s = .next (s.elapse d).settleSlow :=
  congrArg Host.Outcome.next (s.atMoment_some _ wait)

theorem exec_zeroScaleTimeout {s : State} {d : Nat} (wait : s.zeroScaleIn = some d) :
    exec .zeroScaleTimeout s = .next ((s.elapse d).withdrawRequest.reply .notSteady []) :=
  congrArg Host.Outcome.next (s.atMoment_some _ wait)

namespace State

theorem settleIn_of_request {s : State} {q : SettleRequest} {r : Reading} (asked : s.weigh.request = some q)
    (valid : s.weigh.reading = some r) (steady : s.weigh.steady = true) :
    s.settleIn = some (s.weigh.settleTime - s.weigh.timer) := by
  simp [settleIn, Weigh.running, asked, valid, steady]

theorem settleSlowIn_of_request {s : State} {q : SettleRequest} (asked : s.weigh.request = some q)
    (once : q.slow = false) (other : q.who ≠ .zeroScale) :
    s.settleSlowIn = some (msUntil (q.time + 5000) s.books.time) := by
  simp [settleSlowIn, asked, once, other, later]

theorem zeroScaleIn_of_request {s : State} {q : SettleRequest} (asked : s.weigh.request = some q)
    (zero : q.who = .zeroScale) : s.zeroScaleIn = some (msUntil (q.time + 5000) s.books.time) := by
  simp [zeroScaleIn, asked, zero, later]

/-- A settle completes: the request goes, SETTLE_SLOW's cause clears, and the reading is handed on (R95, R96). -/
theorem completeSettle_of_request {s : State} {q : SettleRequest} {r : Reading} (asked : s.weigh.request = some q)
    (valid : s.weigh.reading = some r) :
    s.completeSettle = (s.withdrawRequest.onBooks (·.clearCause .settleSlow)).handSettled q.who r := by
  simp only [completeSettle, asked, valid]

end State

/-! ### The zero band (R97, R98) -/

theorem Reading.inZeroBand_iff (r : Reading) :
    r.inZeroBand = true ↔ -200 ≤ r.weight ∧ r.weight ≤ 200 ∧ r.isOver = false := by
  simp [inZeroBand, and_assoc]

theorem Reading.not_inZeroBand (r : Reading) (out : r.weight < -200 ∨ 200 < r.weight ∨ r.isOver = true) :
    ¬ r.inZeroBand = true := by
  rw [inZeroBand_iff, Bool.eq_false_iff]
  rintro ⟨low, high, light⟩
  rcases out with below | above | heavy
  · omega
  · omega
  · exact light heavy

/-! ### ZERO SCALE (R98) -/

theorem exec_zeroScale (p : Params) (s : State) :
    exec (.zeroScale p) s = .next (s.hostCommand 0x33 p noData State.zeroBody) := rfl

theorem State.zeroBody_eq (s : State) : s.zeroBody = if s.filler.step ≠ .idle ∨ s.pins.chest = true
    then s.reply .busy [] else s.placeRequest .zeroScale := by
  simp only [zeroBody, Bool.or_eq_true, decide_eq_true_eq]

/-- ZERO SCALE past R174's first four checks: BUSY but in IDLE with CHEST low, where it places a request. -/
theorem zeroScale_acts {s : State} {p : Params} (admitted : s.admits 0x33 p) : exec (.zeroScale p) s = .next
    (if s.filler.step ≠ .idle ∨ s.pins.chest = true then s.answers 0x33 p .busy []
      else (s.take 0x33 (p.stated.length + p.beyond.length)).placeRequest .zeroScale) := by
  rw [exec_zeroScale, State.hostCommand_admits admitted, State.zeroBody_eq]
  rfl

/-- Settles O22: the refusal or the request, and the timeout at its moment. -/
theorem zeroScaleWaitsForASettle : Obligations.ZeroScaleWaitsForASettle := by
  refine ⟨fun p s admitted => ?_, fun s q code d asked zero hd command => ?_⟩
  · rw [zeroScale_acts admitted]
    refine ⟨fun away => by rw [if_pos away], fun idle low => ?_⟩
    rw [if_neg (by simp [idle, low])]
    rfl
  · subst hd
    rw [exec_zeroScaleTimeout (State.zeroScaleIn_of_request asked zero),
      State.reply_some (by rwa [State.withdrawRequest_port])]
    rfl

/-! ### O43 -/

/-- A response that has been made is ready once any station time has passed (R173; log 25). -/
theorem Port.ripen_within (p : Port) (d : Nat) : (if d = 0 then p else p.ripen) = match p.busy, p.reply with
    | true, some r => if d = 0 then p
      else { busy := false, ready := true, command := none, reply := none, buffer := some r, miso := p.miso }
    | _, _ => p := by
  cases busy : p.busy with
  | false => simp [Port.ripen_unmade (.inl busy)]
  | true =>
    cases reply : p.reply with
    | none => simp [Port.ripen_unmade (.inr reply)]
    | some r => rw [Port.ripen_made busy reply]; rfl

/-- Settles O43: the completed settle is handed to its requester, SETTLE_SLOW comes at its moment, and station time
passes as `elapse` says. -/
theorem settlesReachTheirRequester : Obligations.SettlesReachTheirRequester := by
  refine ⟨fun s q r d t asked valid steady hd ht => ?_, fun s q d asked once other hd => ?_, fun s d => ?_⟩
  · have handed : exec .settleComplete s = .next (t.handSettled q.who r) := by
      rw [hd] at ht
      rw [exec_settleComplete (State.settleIn_of_request asked valid steady),
        State.completeSettle_of_request (s := s.elapse _) asked valid, ht]
      rfl
    rw [handed]
    refine ⟨fun fill => by rw [fill]; rfl, fun capture => ?_, fun code zero command => ?_⟩
    · rw [capture]
      refine ⟨fun low high light => ?_, fun out => ?_⟩
      · rw [State.handSettled, State.captureSettled, if_pos (r.inZeroBand_iff.2 ⟨low, high, light⟩)]
        rfl
      · rw [State.handSettled, State.captureSettled, if_neg (r.not_inZeroBand out)]
        rfl
    · rw [zero]
      refine ⟨fun low high light => ?_, fun out => ?_⟩
      · rw [State.handSettled, State.zeroSettled, if_pos (r.inZeroBand_iff.2 ⟨low, high, light⟩),
          State.reply_some (s := t.setZero r.mean) command]
        rfl
      · rw [State.handSettled, State.zeroSettled, if_neg (r.not_inZeroBand out),
          State.reply_some (s := t.onBooks (·.raiseFault .zeroDrift)) command]
        rfl
  · subst hd
    rw [exec_settleSlow (State.settleSlowIn_of_request asked once other)]
    have slow : (s.elapse (msUntil (q.time + 5000) s.books.time)).weigh.request = some q := asked
    simp only [State.settleSlow, slow]
    rfl
  · have passed := s.elapse_frame d
    rw [s.elapse_weigh d, s.elapse_filler d, s.port.ripen_within d] at passed
    exact passed

end Sys2Proof.Machine
end

section
/-! PROOFS. The word assembler, and a word's 24 bits as a count (R87, R88; O42). -/

namespace Sys2Proof.Machine

/-! ### The count of a word (R88) -/

/-- The bits shifted in one by one, the first the most significant, are the binary number of the word. -/
theorem foldl_bits_eq_toNat (bits : List Bool) (a : Int) :
    bits.foldl (fun a b => 2 * a + (if b then 1 else 0)) a = a * 2 ^ bits.length + (BitVec.ofBoolListBE bits).toNat := by
  induction bits generalizing a with
  | nil => simp [BitVec.ofBoolListBE]
  | cons b bits ih =>
    rw [List.foldl_cons, ih, BitVec.ofBoolListBE, BitVec.toNat_cons', List.length_cons, Nat.shiftLeft_eq, pow_succ]
    cases b <;> simp <;> ring

theorem wordCount_eq_toInt {bits : List Bool} (whole : bits.length = 24) :
    wordCount bits = (BitVec.ofBoolListBE bits).toInt := by
  have size : 2 ^ bits.length = 2 ^ 24 := by rw [whole]
  rw [wordCount, foldl_bits_eq_toNat, zero_mul, zero_add, BitVec.toInt_eq_toNat_cond, size]
  split <;> split <;> omega

/-! ### The word assembler (R87, R88) -/

namespace Weigh

variable {w : Weigh} {now : Time} {bits : List Bool}

theorem complete_eq (w : Weigh) (now : Time) (bits : List Bool) : w.complete now bits = { w with
    word := none, holding := if w.holding = none then some ⟨wordCount bits, now⟩ else w.holding } := by
  unfold complete
  cases w.holding <;> rfl

theorem clock_frame (w : Weigh) (now : Time) (b : Bool) : w.clock now ⟨true, b⟩ = { w with word := some [b] } := rfl

theorem clock_idle (none : w.word = none) (b : Bool) : w.clock now ⟨false, b⟩ = w := by simp [clock, none]

theorem clock_bit (word : w.word = some bits) (few : bits.length < 23) (b : Bool) :
    w.clock now ⟨false, b⟩ = { w with word := some (bits ++ [b]) } := by simp [clock, word, few]

theorem clock_last (word : w.word = some bits) (full : bits.length = 23) (b : Bool) :
    w.clock now ⟨false, b⟩ = w.complete now (bits ++ [b]) := by simp [clock, word, full]

theorem clock_scale (w : Weigh) (now : Time) (e : SampleEdge) : (w.clock now e).scale = w.scale := by
  unfold clock
  split
  · rfl
  · split
    · rfl
    · split
      · rfl
      · rw [complete_eq]

/-- The bits that a word in progress still lacks complete it. -/
theorem foldl_clock_rest {l : List Bool} (word : w.word = some bits) (lacking : l ≠ [])
    (whole : bits.length + l.length = 24) :
    (l.map (fun x => (⟨false, x⟩ : SampleEdge))).foldl (clock now) w = w.complete now (bits ++ l) := by
  induction l generalizing w bits with
  | nil => exact absurd rfl lacking
  | cons x l ih =>
    rw [List.length_cons] at whole
    rw [List.map_cons, List.foldl_cons]
    cases l with
    | nil => exact clock_last word (by simpa using whole) x
    | cons y l =>
      rw [List.length_cons] at whole
      rw [clock_bit word (by omega), ih rfl (by simp) (by simp; omega), complete_eq, complete_eq]
      simp

end Weigh

/-! ### SAMPLE_WORD (R86, R87) -/

theorem sampleWord_of_scale {s : State} (scale : s.weigh.scale ≠ none) (edges : List SampleEdge) :
    exec (.sampleWord edges) s = .next (s.setWeigh (edges.foldl (Weigh.clock s.books.time) s.weigh)) :=
  congrArg Host.Outcome.next (if_pos (Option.isSome_iff_ne_none.2 scale))

theorem sampleWord_of_no_scale {s : State} (scale : s.weigh.scale = none) (edges : List SampleEdge) :
    exec (.sampleWord edges) s = .next s :=
  congrArg Host.Outcome.next (if_neg (by simp [scale]))

/-- A whole word, from its first edge with the frame line high (R87, R88). -/
theorem sampleWord_whole {s : State} (scale : s.weigh.scale ≠ none) (b : Bool) {l : List Bool} (rest : l.length = 23) :
    exec (.sampleWord (⟨true, b⟩ :: l.map (fun x => ⟨false, x⟩))) s = .next { s with weigh := { s.weigh with
      word := none,
      holding := if s.weigh.holding = none then some ⟨(BitVec.ofBoolListBE (b :: l)).toInt, s.books.time⟩
        else s.weigh.holding } } := by
  have lacking : l ≠ [] := List.ne_nil_of_length_pos (by omega)
  rw [sampleWord_of_scale scale, List.foldl_cons, Weigh.clock_frame,
    Weigh.foldl_clock_rest rfl lacking (by simp [rest]), Weigh.complete_eq, List.singleton_append,
    wordCount_eq_toInt (by simp [rest])]
  rfl

/-- The edges of a row act one after the other. -/
theorem sampleWord_cons {s t : State} {e : SampleEdge} (first : exec (.sampleWord [e]) s = .next t)
    (l : List SampleEdge) : exec (.sampleWord (e :: l)) s = exec (.sampleWord l) t := by
  by_cases scale : s.weigh.scale = none
  · rw [sampleWord_of_no_scale scale, Host.Outcome.next.injEq] at first
    rw [← first, sampleWord_of_no_scale scale, sampleWord_of_no_scale scale]
  · rw [sampleWord_of_scale scale, Host.Outcome.next.injEq] at first
    have kept : t.weigh.scale ≠ none := by
      rw [← first]
      exact fun gone => scale ((s.weigh.clock_scale _ e).symm.trans gone)
    rw [sampleWord_of_scale scale, sampleWord_of_scale kept, ← first]
    rfl

end Sys2Proof.Machine
end

section
/-! PROOFS. What the lane and the entry to HALT leave of the Weigh Channel: all but the settle request, its timer and the
mark of SCALE_SATURATED (R95, R123, R169; O42). -/

namespace Sys2Proof.Machine

/-- The samples, the reading and the scale stand; the request, its timer and the mark of SCALE_SATURATED may change. -/
def State.Measures (s t : State) : Prop :=
  ∃ request timer raised, t.weigh = { s.weigh with request := request, timer := timer, saturationRaised := raised }

namespace State

variable {s t u : State}

theorem Measures.of_weigh (same : t.weigh = s.weigh) : s.Measures t := ⟨_, _, _, same⟩

theorem Measures.refl (s : State) : s.Measures s := .of_weigh rfl

theorem Measures.trans (h : s.Measures t) (k : t.Measures u) : s.Measures u := by
  obtain ⟨_, _, _, h⟩ := h
  obtain ⟨request, timer, raised, k⟩ := k
  exact ⟨request, timer, raised, by rw [k, h]⟩

theorem Measures.ite {c : Prop} [Decidable c] (h : s.Measures t) (k : s.Measures u) :
    s.Measures (if c then t else u) := by split <;> assumption

/-- An operation that leaves the Weigh Channel follows. -/
theorem Measures.same (h : s.Measures t) (same : u.weigh = t.weigh) : s.Measures u := h.trans (.of_weigh same)

/-! ### Requests, rejection and the cut (R95, R112, R116 to R119) -/

theorem measures_withdrawRequest (s : State) : s.Measures s.withdrawRequest := ⟨none, 0, _, rfl⟩

theorem measures_withdrawLane (s : State) : s.Measures s.withdrawLane := .ite s.measures_withdrawRequest (.refl s)

theorem measures_askSettle (s : State) (who : Requester) : s.Measures (s.askSettle who) :=
  .ite (.refl s) ⟨_, 0, _, s.placeRequest_weigh who⟩

theorem measures_enterClear (s : State) : s.Measures s.enterClear :=
  .ite (.of_weigh rfl) (.ite (.of_weigh rfl) ((Measures.of_weigh (s.toStep_weigh .clear)).trans (measures_askSettle _ _)))

theorem measures_enterReject (s : State) (reason : RejectReason) : s.Measures (s.enterReject reason) := by
  unfold enterReject
  dsimp only
  split
  · exact s.measures_withdrawLane.same rfl
  · exact s.measures_withdrawLane.same (queueReport_weigh _ _)

theorem measures_cutFill (s : State) : s.Measures s.cutFill :=
  ((Measures.of_weigh s.closeGate_weigh).trans (measures_withdrawLane _)).same rfl

theorem measures_abortFill (s : State) (reason : RejectReason) : s.Measures (s.abortFill reason) := by
  have cut (k : FillStep) : s.Measures (s.cutFill.toStep k).endUndrawn :=
    s.measures_cutFill.same (endUndrawn_weigh _)
  exact .ite (s.measures_cutFill.trans (measures_enterReject _ _))
    (.ite ((cut .idle).same rfl) ((cut .clear).trans (measures_enterClear _)))

/-! ### Reading updates (R100, R105, R107, R111) -/

theorem measures_feedGate (s : State) (k : Nat) : s.Measures (s.feedGate k) := by
  unfold feedGate
  split
  · exact .ite ((Measures.of_weigh (s.toStep_weigh _)).trans (measures_askSettle _ _))
      (.ite (.of_weigh rfl) (.of_weigh rfl))
  · exact .refl s

theorem measures_topupGate (s : State) : s.Measures s.topupGate := by
  unfold topupGate
  split
  · split
    · exact .ite ((Measures.of_weigh rfl).trans (measures_askSettle _ _)) (.of_weigh rfl)
    · exact .refl s
  · exact .refl s

theorem measures_followNet (s : State) : s.Measures s.followNet := by
  unfold followNet
  split
  · exact .of_weigh rfl
  · exact .refl s

theorem measures_overload (s : State) : s.Measures s.overload := s.measures_cutFill.trans (measures_enterReject _ _)

theorem measures_validUpdate (s : State) (r : Reading) : s.Measures (s.validUpdate r) := by
  have follows := s.measures_followNet
  have overloaded := follows.trans (measures_overload _)
  unfold validUpdate
  refine .ite follows ?_
  split
  · exact .ite overloaded (follows.trans (measures_feedGate _ _))
  · exact .ite follows (.ite overloaded (follows.trans (measures_topupGate _)))
  all_goals exact follows

theorem measures_readingUpdate (s : State) : s.Measures s.readingUpdate := by
  unfold readingUpdate
  split
  · exact s.measures_validUpdate _
  · exact .of_weigh rfl

/-! ### HALT (R123, R135, R169) -/

theorem measures_haltMark (s : State) : s.Measures s.haltMark := by
  unfold haltMark
  split
  · exact .refl s
  · unfold endMark
    dsimp only
    split
    · exact .ite ((Measures.of_weigh rfl).trans (measures_enterClear _)) (.of_weigh rfl)
    · exact .of_weigh rfl

theorem measures_haltFill (s : State) : s.Measures s.haltFill := by
  unfold haltFill
  split
  iterate 6 exact s.measures_abortFill _
  · exact .ite (.refl s) (s.measures_withdrawLane.same rfl)
  all_goals exact .refl s

theorem measures_enterHalt (s : State) : s.Measures s.enterHalt :=
  ((((Measures.of_weigh (s.setStation_weigh _)).trans (measures_haltFill _)).trans (measures_haltMark _)).same
    (onBooks_weigh _ _)).trans (measures_withdrawLane _)

theorem measures_raiseHalting (s : State) (c : FaultCode) : s.Measures (s.raiseHalting c) :=
  .ite ((Measures.of_weigh (s.onBooks_weigh _)).trans (measures_enterHalt _)) (.of_weigh rfl)

theorem raiseHalting_time (s : State) (c : FaultCode) : (s.raiseHalting c).books.time = s.books.time := by
  unfold raiseHalting
  dsimp only
  split
  · exact (flows_enterHalt _).books.time
  · rfl

end State

end Sys2Proof.Machine
end

section
/-! PROOFS. Good samples and sample loss (R88 to R95, R166, R169; O42). -/

namespace Sys2Proof.Machine

/-! ### What a sample makes of the window (R89 to R94) -/

theorem saturatedCount_eq (count : Int) : saturatedCount count = decide (8388592 ≤ count ∨ count ≤ -8388592) :=
  (Bool.decide_or _ _).symm

namespace Scale

variable {sc : Scale} {win : List Sample}

theorem windowGood_iff (sc : Scale) (win : List Sample) :
    sc.windowGood win = true ↔ win.length = sc.window ∧ ∀ x ∈ win, x.saturated = false := by
  simp [windowGood]

theorem windowGood_eq_false (bad : win.length ≠ sc.window ∨ ∃ x ∈ win, x.saturated = true) :
    sc.windowGood win = false := by
  rw [Bool.eq_false_iff, ne_eq, windowGood_iff]
  rintro ⟨whole, unsaturated⟩
  rcases bad with short | ⟨x, mem, saturated⟩
  · exact short whole
  · exact absurd (unsaturated x mem) (by simp [saturated])

theorem readingOf_bad (bad : sc.windowGood win = false) : sc.readingOf win = none := by simp [readingOf, bad]

theorem steadyOf_bad (bad : sc.windowGood win = false) : sc.steadyOf win = false := by simp [steadyOf, bad]

theorem readingOf_good (good : sc.windowGood win = true) {mean weight : Int}
    (hmean : mean = roundHalfAway (win.map (·.count)).sum sc.window)
    (hweight : weight = roundHalfAway ((mean - sc.zero) * 1000) sc.c10) :
    sc.readingOf win = some ⟨mean, weight, decide (sc.capacity < weight)⟩ := by
  subst hmean hweight
  exact if_pos good

theorem steadyOf_good_iff (good : sc.windowGood win = true) : sc.steadyOf win = true ↔ ∀ x ∈ win, ∀ y ∈ win,
    roundHalfAway ((x.count - sc.zero) * 1000) sc.c10 - roundHalfAway ((y.count - sc.zero) * 1000) sc.c10
      ≤ sc.motion := by
  simp [steadyOf, good, weightOf]

end Scale

/-! ### Good samples (R88 to R95) -/

namespace State

/-- A good sample in the Weigh Channel and in the fault list, before the Fill Sequencer sees the update (R89 to R94). -/
def sampled (s : State) (sc : Scale) (count : Int) : State :=
  (s.setWeigh (s.weigh.takeSample sc count s.books.time)).onBooks (·.sampleSeen (saturatedCount count))

theorem goodSampleIn_of_held {s : State} {sc : Scale} {h : Held} (scale : s.weigh.scale = some sc)
    (held : s.weigh.holding = some h) : s.goodSampleIn = some (msUntil (h.time + 1) s.books.time) := by
  simp [goodSampleIn, scale, held, later]

theorem goodSample_of_held {s : State} {sc : Scale} {h : Held} (scale : s.weigh.scale = some sc)
    (held : s.weigh.holding = some h) : s.goodSample
      = if saturatedCount h.count && (s.sampled sc h.count).readingUpdate.books.station.onLine
        then (s.sampled sc h.count).readingUpdate.raiseSaturation else (s.sampled sc h.count).readingUpdate := by
  unfold goodSample
  rw [scale, held]
  rfl

theorem raiseSaturation_of_not_due {s : State} (early : s.saturationDue = false) : s.raiseSaturation = s :=
  if_neg (by simp [early])

theorem raiseSaturation_of_due {s : State} (due : s.saturationDue = true) : s.raiseSaturation
    = (s.setWeigh { s.weigh with saturationRaised := true }).raiseHalting .scaleSaturated := if_pos due

theorem measures_raiseSaturation (s : State) : s.Measures s.raiseSaturation :=
  .ite (Measures.trans ⟨_, _, true, rfl⟩ (measures_raiseHalting _ _)) (.refl s)

theorem raiseSaturation_time (s : State) : s.raiseSaturation.books.time = s.books.time := by
  unfold raiseSaturation
  split
  · exact raiseHalting_time _ _
  · rfl

section Raised

variable {s : State} {sc : Scale} {h : Held} (scale : s.weigh.scale = some sc) (held : s.weigh.holding = some h)
include scale held

/-- A sample that is not saturated, outside ONLINE and HALT, or short of the limit of R90 raises nothing. -/
theorem goodSample_of_quiet {u : State} (hu : u = (s.sampled sc h.count).readingUpdate)
    (quiet : saturatedCount h.count = false ∨ (u.books.station ≠ .online ∧ u.books.station ≠ .halt)
      ∨ u.saturationDue = false) : s.goodSample = u := by
  rw [goodSample_of_held scale held, ← hu]
  rcases quiet with unsaturated | away | early
  · rw [unsaturated]
    rfl
  · refine if_neg ?_
    simp only [Bool.and_eq_true, StationState.onLine_iff]
    tauto
  · rw [raiseSaturation_of_not_due early, ite_self]

theorem goodSample_of_due {u : State} (hu : u = (s.sampled sc h.count).readingUpdate)
    (saturated : saturatedCount h.count = true) (onLine : u.books.station = .online ∨ u.books.station = .halt)
    (due : u.saturationDue = true) : s.goodSample
      = (u.setWeigh { u.weigh with saturationRaised := true }).raiseHalting .scaleSaturated := by
  rw [goodSample_of_held scale held, ← hu,
    if_pos (Bool.and_eq_true_iff.2 ⟨saturated, (StationState.onLine_iff _).2 onLine⟩), raiseSaturation_of_due due]

/-- What follows the sample leaves the Weigh Channel but for the request, its timer and SCALE_SATURATED's mark. -/
theorem sampled_measures_goodSample : (s.sampled sc h.count).Measures s.goodSample := by
  have updated := (s.sampled sc h.count).measures_readingUpdate
  rw [goodSample_of_held scale held]
  exact .ite (updated.trans (measures_raiseSaturation _)) updated

theorem goodSample_time : s.goodSample.books.time = s.books.time := by
  have updated : (s.sampled sc h.count).readingUpdate.books.time = s.books.time := by
    rw [(flows_readingUpdate _).books.time]
    unfold sampled Books.sampleSeen
    cases saturatedCount h.count <;> rfl
  rw [goodSample_of_held scale held]
  split
  · rw [raiseSaturation_time, updated]
  · exact updated

end Raised

end State

theorem exec_goodSample {s : State} {d : Nat} (wait : s.goodSampleIn = some d) :
    exec .goodSample s = .next (s.elapse d).goodSample :=
  congrArg Host.Outcome.next (s.atMoment_some _ wait)

/-! ### Sample loss (R91) -/

theorem State.sampleLossIn_of_gap {s : State} {last : Time} (seen : s.weigh.lastGood = some last)
    (once : s.weigh.lossFound = false) : s.sampleLossIn = some (msUntil (last + 50) s.books.time) := by
  simp [sampleLossIn, seen, once, later]

theorem exec_sampleLoss {s : State} {d : Nat} (wait : s.sampleLossIn = some d) :
    exec .sampleLoss s = .next (s.elapse d).loseSamples :=
  congrArg Host.Outcome.next (s.atMoment_some _ wait)

theorem State.loseSamples_eq (s : State) : s.loseSamples = if s.books.station = .online ∨ s.books.station = .halt
    then (s.setWeigh s.weigh.lose).raiseHalting .sampleLoss else s.setWeigh s.weigh.lose := by
  simp only [loseSamples, setWeigh_books, StationState.onLine_iff]

/-! ### O42 -/

/-- Settles O42: the edges of a word one by one; a good sample as the sample in the Weigh Channel, then the update that the
Fill Sequencer sees, then SCALE_SATURATED, both of which leave the reading; and the gap of R91. -/
theorem wordsSamplesAndLoss : Obligations.WordsSamplesAndLoss := by
  refine ⟨fun s b l rest => ⟨fun scale => sampleWord_whole scale b rest, fun scale => sampleWord_of_no_scale scale _⟩,
    fun s b scale => ⟨?_, fun idle => ?_, fun bits word few => ?_⟩, fun s t e l first => sampleWord_cons first l,
    fun s sc h d win sat scale held hd hsat hwin => ?_, fun s last d seen once hd => ?_⟩
  · rw [sampleWord_of_scale scale]
    rfl
  · rw [sampleWord_of_scale scale, List.foldl_cons, Weigh.clock_idle idle]
    rfl
  · rw [sampleWord_of_scale scale, List.foldl_cons, Weigh.clock_bit word few]
    rfl
  · rw [← saturatedCount_eq] at hsat
    subst hd hsat
    have wait := State.goodSampleIn_of_held scale held
    generalize msUntil (h.time + 1) s.books.time = d at wait ⊢
    obtain ⟨request, timer, raised, measured⟩ :=
      State.sampled_measures_goodSample (s := s.elapse d) (sc := sc) (h := h) scale held
    have window : (s.elapse d).goodSample.weigh.window = win := (congrArg Weigh.window measured).trans hwin.symm
    have since := congrArg Weigh.saturatedSince measured
    have reading : (s.elapse d).goodSample.weigh.reading = sc.readingOf win := by
      rw [hwin]
      exact congrArg Weigh.reading measured
    have steady : (s.elapse d).goodSample.weigh.steady = sc.steadyOf win := by
      rw [hwin]
      exact congrArg Weigh.steady measured
    refine ⟨(s.elapse d).goodSample, ((s.elapse d).sampled sc h.count).readingUpdate, exec_goodSample wait,
      State.goodSample_time (s := s.elapse d) scale held, (congrArg Weigh.scale measured).trans scale,
      congrArg Weigh.holding measured, window, congrArg Weigh.lastGood measured, congrArg Weigh.lossFound measured,
      since, fun bad => ?_, fun mean weight whole unsaturated hmean hweight => ?_, ?_,
      State.goodSample_of_quiet (s := s.elapse d) scale held rfl,
      State.goodSample_of_due (s := s.elapse d) scale held rfl⟩
    · have invalid := Scale.windowGood_eq_false bad
      exact ⟨reading.trans (Scale.readingOf_bad invalid), steady.trans (Scale.steadyOf_bad invalid)⟩
    · have good := (sc.windowGood_iff win).2 ⟨whole, unsaturated⟩
      exact ⟨reading.trans (Scale.readingOf_good good hmean hweight), by rw [steady, Scale.steadyOf_good_iff good]⟩
    · refine congrArg State.readingUpdate ?_
      rw [reading, steady, since, hwin]
      rfl
  · subst hd
    rw [exec_sampleLoss (State.sampleLossIn_of_gap seen once), State.loseSamples_eq]
    refine ⟨_, _, rfl, rfl, rfl, fun online => ?_⟩
    rw [if_pos (.inl online)]
    exact State.raiseHalting_halts _ online

end Sys2Proof.Machine
end

section
/-! PROOFS. The law of the station state, and what the entries to HALT, OFFLINE and ONLINE make of it (R123, R169 to R171, R175,
R177; O59). -/

namespace Sys2Proof.Machine

namespace Books

/-- A raise adds its own code to those that stand (R165). -/
theorem any_raiseFault (b : Books) (c : FaultCode) (p : FaultCode → Bool) :
    (b.raiseFault c).faults.any (fun e => p e.code) = (p c || b.faults.any (fun e => p e.code)) := by
  have code : (raisedEntry c b.time (b.fault? c)).code = c := by
    unfold raisedEntry
    split
    · rfl
    · next e found => simpa [fault?] using List.find?_some found
  unfold raiseFault
  dsimp only
  rw [any_putBy, code]
  intro y _ same
  rw [code] at same ⊢
  rw [num_injective same]

/-- The severe faults are those that halt the lane and those that put the station OFFLINE (R166). -/
theorem anySevere_eq (b : Books) :
    b.anySevere = (b.anyHalting || b.faults.any (fun e => e.code.offline)) := by
  have split : ∀ e : FaultEntry, e.code.severe = (e.code.halts || e.code.offline) := by
    intro e
    cases e.code <;> rfl
  unfold anySevere anyHalting
  induction b.faults with
  | nil => rfl
  | cons e l ih =>
    rw [List.any_cons, List.any_cons, List.any_cons, ih, split]
    ac_rfl

end Books

namespace State

/-- The half of the law of the gates that looks past the lane: which faults stand, the online wait, the sender, and reset
in progress, by the station state. -/
structure PostLaw (s : State) : Prop where
  severe : s.books.station ≠ .halt → s.books.station ≠ .offline → s.books.anySevere = false
  offline : s.books.station ≠ .offline → s.books.faults.any (fun e => e.code.offline) = false
  wait : s.books.onlineWait = true → s.books.station = .configured
  sender : s.line.role = .sender → s.books.station.onLine = true
  reset : s.inReset = true → s.books.station = .unconfigured

/-- The law under which every open gate is safe, in the two halves that the lane and the station state keep. -/
structure Safe (s : State) : Prop where
  lane : s.LaneLaw
  post : s.PostLaw

theorem gatesSafe_iff (s : State) : s.gatesSafe ↔ s.Safe :=
  ⟨fun ⟨⟨severe, offline, fill, wait, sender, reset⟩, gate, request⟩ =>
      ⟨⟨gate, request, fill⟩, ⟨severe, offline, wait, sender, reset⟩⟩,
    fun ⟨⟨gate, request, fill⟩, ⟨severe, offline, wait, sender, reset⟩⟩ =>
      ⟨⟨severe, offline, fill, wait, sender, reset⟩, gate, request⟩⟩

variable {s t : State}

/-! ### Changes outside the station state -/

theorem PostLaw.of_kept (h : s.PostLaw) (books : s.books.Kept t.books)
    (sender : t.line.role = .sender → s.line.role = .sender) (reset : t.inReset = s.inReset) : t.PostLaw where
  severe := by rw [books.station, books.severe]; exact h.severe
  offline := by rw [books.station, books.offline]; exact h.offline
  wait := by rw [books.onlineWait, books.station]; exact h.wait
  sender := by rw [books.station]; exact fun role => h.sender (sender role)
  reset := by rw [reset, books.station]; exact h.reset

/-- An operation of the lane's blocks leaves the station state to the law of the lane. -/
theorem Safe.flows (h : s.Safe) (flows : s.Flows t) (lane : t.LaneLaw) : t.Safe :=
  ⟨lane, h.post.of_kept flows.books (by rw [flows.line]; exact id) flows.inReset⟩

theorem Safe.ite {c : Prop} [Decidable c] (h : s.Safe) (k : t.Safe) : (if c then s else t).Safe := by
  split <;> assumption

theorem Safe.onBooks (h : s.Safe) {f : Books → Books} (kept : s.books.Kept (f s.books)) : (s.onBooks f).Safe :=
  h.flows (s.flows_onBooks kept) (h.lane.onBooks kept)

theorem Safe.setMarker (h : s.Safe) (m : Marker) : (s.setMarker m).Safe :=
  h.flows (s.flows_setMarker m) (h.lane.setMarker m)

theorem Safe.setPort (h : s.Safe) (p : Port) : (s.setPort p).Safe := h.flows (s.flows_setPort p) (h.lane.setPort p)

theorem Safe.reply (h : s.Safe) (st : Status) (data : List Byte) : (s.reply st data).Safe :=
  h.flows (s.flows_reply st data) (h.lane.reply st data)

theorem Safe.replySpending (h : s.Safe) (data : List Byte) : (s.replySpending data).Safe :=
  have replied := h.reply .ok data
  ⟨replied.lane.congr rfl rfl rfl rfl rfl, replied.post.of_kept (.refl _) id rfl⟩

/-- A change of the Weigh Channel that places no request of the lane. -/
theorem Safe.setWeigh (h : s.Safe) {w : Weigh}
    (request : w.request.any (fun q => q.who.ofLane) = true → s.weigh.request.any (fun q => q.who.ofLane) = true) :
    (s.setWeigh w).Safe :=
  h.flows (s.flows_setWeigh w) ⟨h.lane.gate,
    fun hold => Bool.eq_false_iff.2 fun asked => Bool.eq_false_iff.1 (h.lane.request hold) (request asked), h.lane.fill⟩

/-- A change of the line that makes this station no sender. -/
theorem Safe.setLine (h : s.Safe) {l : Line} (sender : l.role = .sender → s.line.role = .sender) : (s.setLine l).Safe :=
  ⟨h.lane.setLine l, h.post.of_kept (.refl _) sender rfl⟩

/-- A change of the line that ends what this station follows or sends. -/
theorem Safe.endLine (h : s.Safe) {l : Line} (role : l.role = .none) : (s.setLine l).Safe :=
  h.setLine fun sender => by rw [role] at sender; cases sender

theorem Safe.elapse (h : s.Safe) (d : Nat) : (s.elapse d).Safe :=
  ⟨h.lane.congr rfl rfl rfl rfl rfl,
    ⟨h.post.severe, h.post.offline, h.post.wait, h.post.sender, h.post.reset⟩⟩

theorem Safe.atMoment (h : s.Safe) (wait : Option Nat) {f : State → State} (run : ∀ u : State, u.Safe → (f u).Safe) :
    (s.atMoment wait f).Safe := by
  unfold State.atMoment
  split
  · exact h
  · exact run _ (h.elapse _)

/-! ### HALT and OFFLINE (R169, R171) -/

/-- In ONLINE and HALT no online wait stands, and no reset is in progress. -/
theorem PostLaw.onLine (h : s.PostLaw) (line : s.books.station.onLine = true) :
    s.books.onlineWait = false ∧ s.inReset = false := by
  refine ⟨Bool.eq_false_iff.2 fun wait => ?_, Bool.eq_false_iff.2 fun reset => ?_⟩
  · rw [h.wait wait] at line; cases line
  · rw [h.reset reset] at line; cases line

theorem PostLaw.setHalt (h : s.PostLaw) (line : s.books.station.onLine = true) : (s.setStation .halt).PostLaw where
  severe := fun other => absurd rfl other
  offline := fun _ => h.offline fun offline => by rw [offline] at line; cases line
  wait := fun wait => absurd wait (Bool.eq_false_iff.1 (h.onLine line).1)
  sender := fun _ => rfl
  reset := fun reset => absurd reset (Bool.eq_false_iff.1 (h.onLine line).2)

/-- In HALT a fault of codes 3 to 5 may stand. -/
theorem PostLaw.raiseInHalt (h : s.PostLaw) (halted : s.books.station = .halt) {c : FaultCode} (halts : c.halts = true) :
    (s.onBooks (·.raiseFault c)).PostLaw where
  severe := fun other => absurd halted other
  offline := fun other => by
    have stays : c.offline = false := by rw [FaultCode.offline, halts, Bool.not_true, Bool.and_false]
    rw [onBooks_books, Books.any_raiseFault, stays, Bool.false_or]
    exact h.offline other
  wait := h.wait
  sender := h.sender
  reset := h.reset

/-- A raise of codes 3 to 5 in ONLINE or HALT leaves the lane safe: in ONLINE the station enters HALT. -/
theorem Safe.raiseHalting (h : s.Safe) (line : s.books.station.onLine = true) {c : FaultCode} (halts : c.halts = true) :
    (s.raiseHalting c).Safe := by
  refine ⟨h.lane.raiseHalting c, ?_⟩
  rcases (StationState.onLine_iff _).1 line with online | halted
  · have enters : s.raiseHalting c = (s.onBooks (·.raiseFault c)).enterHalt := if_pos online
    have flows := flows_enterHalt (s.onBooks (·.raiseFault c))
    have entered : ((s.onBooks (·.raiseFault c)).setStation .halt).PostLaw :=
      (h.post.setHalt line).raiseInHalt rfl halts
    rw [enters]
    exact entered.of_kept flows.books (by rw [flows.line]; exact id) flows.inReset
  · have stays : s.raiseHalting c = s.onBooks (·.raiseFault c) :=
      if_neg (by rw [onBooks_books]; exact fun online => by rw [Books.raiseFault, halted] at online; cases online)
    rw [stays]
    exact h.post.raiseInHalt halted halts

theorem raiseHalting_onLine (line : s.books.station.onLine = true) (c : FaultCode) :
    (s.raiseHalting c).books.station.onLine = true := by
  by_cases online : s.books.station = .online
  · rw [raiseHalting_halts c online]; rfl
  · rw [raiseHalting_books_of_not_online c online]; exact line

theorem Safe.raiseSaturation (h : s.Safe) (line : s.books.station.onLine = true) : s.raiseSaturation.Safe :=
  Safe.ite ((h.setWeigh (w := { s.weigh with saturationRaised := true }) id).raiseHalting line rfl) h

theorem PostLaw.of_offline (station : s.books.station = .offline) (wait : s.books.onlineWait = false)
    (silent : s.line.role ≠ .sender) (running : s.inReset = false) : s.PostLaw where
  severe := fun _ other => absurd station other
  offline := fun other => absurd station other
  wait := fun waits => absurd waits (Bool.eq_false_iff.1 wait)
  sender := fun sends => absurd sends silent
  reset := fun resets => absurd resets (Bool.eq_false_iff.1 running)

/-- A station that is neither waiting to go ONLINE nor sending goes OFFLINE safely. -/
theorem Safe.raiseOffline (lane : s.LaneLaw) (wait : s.books.onlineWait = false) (silent : s.line.role ≠ .sender)
    (running : s.inReset = false) (c : FaultCode) : (s.raiseOffline c).Safe := by
  refine ⟨lane.raiseOffline c, ?_⟩
  unfold State.raiseOffline
  dsimp only
  split
  · next station => exact PostLaw.of_offline station wait silent running
  · have flows (m : Marker) := ((flows_offlineFill ((s.onBooks (·.raiseFault c)).setStation .offline)).trans
      (flows_setMarker _ m)).trans (flows_offlineWeigh _)
    exact PostLaw.of_offline (flows _).books.station ((flows _).books.onlineWait.trans wait)
      (by rw [(flows _).line]; exact silent) ((flows _).inReset.trans running)

/-! ### ONLINE (R22, R170, R177) -/

/-- Going ONLINE from CONFIGURED, where no severe fault stands. -/
theorem Safe.goOnline (h : s.Safe) (configured : s.books.station = .configured) : s.goOnline.Safe := by
  have clean : s.books.anySevere = false := h.post.severe (by rw [configured]; decide) (by rw [configured]; decide)
  have inLine : s.books.faults.any (fun e => e.code.offline) = false := h.post.offline (by rw [configured]; decide)
  have running : s.inReset = false := Bool.eq_false_iff.2 fun reset => by
    rw [h.post.reset reset] at configured; cases configured
  have online : (s.setBooks { s.books with station := .online, onlineWait := false }).Safe :=
    ⟨⟨h.lane.gate, h.lane.request, fun _ => rfl⟩,
      ⟨fun _ _ => clean, fun _ => inLine, fun wait => absurd wait Bool.false_ne_true, fun _ => rfl,
        fun reset => absurd reset (Bool.eq_false_iff.1 running)⟩⟩
  have kept := Books.kept_raiseNotice { s.books with station := .online, onlineWait := false } .online none none none
  have told := online.onBooks (f := (·.raiseNotice .online none none none)) kept
  have line : ((s.setBooks { s.books with station := .online, onlineWait := false }).onBooks
      (·.raiseNotice .online none none none)).books.station.onLine = true := by
    rw [onBooks_books, setBooks_books, kept.station]; rfl
  unfold State.goOnline
  dsimp only
  split
  · exact (told.raiseHalting line rfl).raiseSaturation (raiseHalting_onLine line _)
  · exact told.raiseSaturation line

theorem Safe.dropFault (h : s.Safe) (c : FaultCode) : (s.onBooks (·.dropFault c)).Safe := by
  have fewer : ∀ p : FaultCode → Bool, s.books.faults.any (fun e => p e.code) = false →
      (s.books.dropFault c).faults.any (fun e => p e.code) = false := by
    intro p none
    rw [List.any_eq_false] at none ⊢
    exact fun e he => none e (List.mem_filter.1 he).1
  exact ⟨h.lane.congr rfl rfl rfl rfl rfl,
    ⟨fun halt off => fewer _ (h.post.severe halt off), fun off => fewer _ (h.post.offline off), h.post.wait, h.post.sender,
      h.post.reset⟩⟩

/-- From HALT with no entry of codes 3 to 5 the station returns to ONLINE with no severe fault (R170). -/
theorem Safe.returnOnline (h : s.Safe) : s.returnOnline.Safe := by
  unfold State.returnOnline
  split
  · next returns =>
    simp only [Bool.and_eq_true, decide_eq_true_eq, Bool.not_eq_true'] at returns
    obtain ⟨halted, clear⟩ := returns
    obtain ⟨wait, running⟩ := h.post.onLine (by rw [halted]; rfl)
    have inLine := h.post.offline (by rw [halted]; decide)
    refine ⟨⟨h.lane.gate, h.lane.request, fun _ => rfl⟩, ⟨fun _ _ => ?_, fun _ => inLine,
      fun waits => absurd waits (Bool.eq_false_iff.1 wait), fun _ => rfl,
      fun resets => absurd resets (Bool.eq_false_iff.1 running)⟩⟩
    show s.books.anySevere = false
    rw [Books.anySevere_eq, clear, inLine]
    rfl
  · exact h

end State

end Sys2Proof.Machine
end

section
/-! PROOFS. Every command, event and timed row keeps the law of the gates, and with them a step of the machine (R101, R123,
R174; O59). -/

namespace Sys2Proof.Machine

/-! ### The station states in which commands are taken (R174) -/

theorem allowed_of_refusalOf {code : Byte} {length : Nat} {st : StationState} (passed : refusalOf code length st = none) :
    stateAllows code st = true ∧ ¬ (st = .halt ∧ haltRefuses code = true) := by
  unfold refusalOf at passed
  split at passed
  · cases passed
  · split at passed
    · cases passed
    · split at passed
      · cases passed
      · next allowed =>
        split at passed
        · cases passed
        · next unhalted => exact ⟨by simpa using allowed, by simpa using unhalted⟩

theorem configure_state {length : Nat} {st : StationState} (passed : refusalOf 0x01 length st = none) :
    st = .unconfigured := of_decide_eq_true (allowed_of_refusalOf passed).1

theorem goOnline_state {length : Nat} {st : StationState} (passed : refusalOf 0x02 length st = none) :
    st = .configured := of_decide_eq_true (allowed_of_refusalOf passed).1

theorem startChest_state {length : Nat} {st : StationState} (passed : refusalOf 0x20 length st = none) :
    st = .online := by
  obtain ⟨allowed, unhalted⟩ := allowed_of_refusalOf passed
  rcases (StationState.onLine_iff st).1 allowed with online | halted
  · exact online
  · exact absurd ⟨halted, rfl⟩ unhalted

theorem Line.pass_role (l : Line) (samples : List Bool) : (l.pass samples).role = l.role := by rw [Line.pass_eq]

/-- In IDLE no sample makes this station a sender. -/
theorem Line.seek_sender (l : Line) (samples : List Bool) (live : Bool) (sender : (l.seek samples live).role = .sender) :
    l.role = .sender := by
  rcases l.seek_cases samples live with begun | ⟨c, seeks⟩
  · rw [begun] at sender; cases sender
  · rw [seeks] at sender; exact (l.pass_role samples).symm.trans sender

namespace State

variable {s : State}

/-- A command transaction is safe when its body is, in the station states that take the command. -/
theorem safe_hostCommand (h : s.Safe) (code : Byte) (p : Params) (data : State → List Byte) {body : State → State}
    (run : ∀ t : State, t.Safe → t.inReset = false → refusalOf code p.stated.length t.books.station = none →
      (body t).Safe) : (s.hostCommand code p data body).Safe :=
  s.hostCommand_cases code p data body h.setPort fun running passed => run _ (h.setPort _) running passed

/-! ### Reset and configuration (R175, R176) -/

theorem safe_enterReset (s : State) : s.enterReset.Safe :=
  ⟨LaneLaw.resting rfl rfl fun _ => rfl,
    ⟨fun _ _ => rfl, fun _ => rfl, fun wait => absurd wait Bool.false_ne_true, fun sender => (by cases sender),
      fun _ => rfl⟩⟩

/-- In UNCONFIGURED no fill runs, nothing is sent, and no online wait stands. -/
theorem Safe.unconfigured (h : s.Safe) (station : s.books.station = .unconfigured) :
    s.filler.step.inFill = false ∧ s.line.role ≠ .sender ∧ s.books.onlineWait = false := by
  refine ⟨Bool.eq_false_iff.2 fun fill => ?_, fun sender => ?_, Bool.eq_false_iff.2 fun wait => ?_⟩
  · have := h.lane.fill fill; rw [station] at this; cases this
  · have := h.post.sender sender; rw [station] at this; cases this
  · have := h.post.wait wait; rw [station] at this; cases this

theorem Safe.leaveReset (h : s.Safe) (reset : s.inReset = true) (k : Straps) : (s.leaveReset k).Safe := by
  have station := h.post.reset reset
  obtain ⟨-, silent, wait⟩ := h.unconfigured station
  have left : ({ s with
      inReset := false, books := { s.books with straps := k }, filler := { s.filler with remembered := s.pins.chest },
      port := { s.port with busy := false } } : State).Safe :=
    ⟨h.lane.congr rfl rfl rfl rfl rfl,
      ⟨h.post.severe, h.post.offline, h.post.wait, h.post.sender, fun again => absurd again Bool.false_ne_true⟩⟩
  exact Safe.ite (Safe.raiseOffline left.lane wait silent rfl _) left

theorem Safe.configureBody (h : s.Safe) (station : s.books.station = .unconfigured) (running : s.inReset = false)
    (p : List Byte) : (s.configureBody p).Safe := by
  obtain ⟨resting, silent, -⟩ := h.unconfigured station
  have clean := h.post.severe (by rw [station]; decide) (by rw [station]; decide)
  have inLine := h.post.offline (by rw [station]; decide)
  have configured : (s.configureWith p).Safe :=
    ⟨⟨h.lane.gate, fun _ => rfl, fun fill => absurd fill (Bool.eq_false_iff.1 resting)⟩,
      ⟨fun _ _ => clean, fun _ => inLine, fun _ => rfl, fun sender => absurd sender silent,
        fun reset => absurd reset (Bool.eq_false_iff.1 running)⟩⟩
  exact Safe.ite (configured.reply _ _) (h.reply _ _)

theorem Safe.goOnlineBody (h : s.Safe) (station : s.books.station = .configured) : s.goOnlineBody.Safe := by
  have waits : (s.setBooks { s.books with onlineWait := true }).Safe :=
    ⟨h.lane.congr rfl rfl rfl rfl rfl,
      ⟨h.post.severe, h.post.offline, fun _ => station, h.post.sender, h.post.reset⟩⟩
  exact Safe.ite (h.reply _ _) (Safe.ite ((h.goOnline station).reply _ _) (waits.reply _ _))

/-! ### Commands of the invoices, the chests and the bins -/

theorem Safe.openBody (h : s.Safe) (p : List Byte) : (s.openBody p).Safe := by
  unfold State.openBody
  split
  · exact h.reply _ _
  · next taken => exact (h.onBooks (f := (·.openInvoice p)) (Books.sound_openInvoice taken).kept).reply _ _

theorem Safe.abandonBody (h : s.Safe) (n : Nat) : (s.abandonBody n).Safe := by
  unfold State.abandonBody
  split
  · exact h.reply _ _
  · exact (h.onBooks (Books.kept_abandon _ n)).reply _ _

theorem Safe.closeBody (h : s.Safe) (n : Nat) : (s.closeBody n).Safe := by
  unfold State.closeBody
  split
  · exact h.reply _ _
  · exact (h.onBooks (Books.kept_callClose _ _ n)).reply _ _

theorem Safe.releaseBody (h : s.Safe) (n : Nat) : (s.releaseBody n).Safe := by
  have released := h.onBooks (f := (·.release n)) (Books.kept_release _ n)
  exact Safe.ite ((released.flows (flows_modifyFill _ _) (released.lane.modifyFill (·.loseRecord n))).reply _ _)
    (h.reply _ _)

/-- START CHEST is taken in ONLINE alone. -/
theorem Safe.startBody (h : s.Safe) (online : s.books.station = .online) (n : Nat) : (s.startBody n).Safe := by
  unfold State.startBody
  split
  · exact h.reply _ _
  · next r k _ => exact (h.flows (s.flows_armFill r k) (h.lane.armFill online r k)).reply _ _

theorem Safe.abortBody (h : s.Safe) : s.abortBody.Safe :=
  Safe.ite ((h.flows (s.flows_abortFill _) (LaneLaw.abortFill _ _)).reply _ _) (h.reply _ _)

theorem Safe.voidBody (h : s.Safe) (n serial : Nat) : (s.voidBody n serial).Safe := by
  unfold State.voidBody
  split
  · exact h.reply _ _
  · next taken => exact (h.onBooks (f := (·.voidChest n serial)) (Books.sound_voidChest taken).kept).reply _ _

theorem Safe.sampleBody (h : s.Safe) (n serial weight : Nat) : (s.sampleBody n serial weight).Safe := by
  unfold State.sampleBody
  split
  · exact h.reply _ _
  · exact (h.onBooks (Books.kept_recordSample _ n serial weight)).reply _ _

theorem Safe.remarkBody (h : s.Safe) (n serial : Nat) : (s.remarkBody n serial).Safe := by
  unfold State.remarkBody
  split
  · exact h.reply _ _
  · exact (h.flows (s.flows_startMark _ _ _) (h.lane.startMark _ _ _)).reply _ _

theorem Safe.binBody (h : s.Safe) (n action : Nat) (batch quantity : Bin → Nat) :
    (s.binBody n action batch quantity).Safe :=
  Safe.ite ((h.onBooks (Books.kept_queueFrame _ _ _)).reply _ _) (h.reply _ _)

/-- ZERO SCALE's request is none of the lane. -/
theorem Safe.zeroBody (h : s.Safe) : s.zeroBody.Safe :=
  Safe.ite (h.reply _ _) (h.setWeigh fun lane => absurd lane Bool.false_ne_true)

/-! ### Reads and acknowledgement -/

theorem Safe.readInvoiceBody (h : s.Safe) (n : Nat) : (s.readInvoiceBody n).Safe := by
  unfold State.readInvoiceBody
  split
  · exact h.reply _ _
  · exact h.replySpending _

theorem Safe.readChestBody (h : s.Safe) (n selector k : Nat) : (s.readChestBody n selector k).Safe := by
  unfold State.readChestBody
  refine Safe.ite (h.reply _ _) (Safe.ite (h.reply _ _) ?_)
  split <;> exact h.reply _ _

theorem Safe.readLotBody (h : s.Safe) (n part line : Nat) : (s.readLotBody n part line).Safe := by
  unfold State.readLotBody
  refine Safe.ite (h.reply _ _) ?_
  split
  · exact h.reply _ _
  · unfold State.readSheet
    split
    · exact h.replySpending _
    · exact h.reply _ _
    · exact h.reply _ _
    · refine Safe.ite (h.reply _ _) ?_
      split <;> exact h.reply _ _
    · exact h.reply _ _

theorem Safe.readNoticeBody (h : s.Safe) : s.readNoticeBody.Safe := by
  unfold State.readNoticeBody
  split
  · exact h.replySpending _
  · exact (h.onBooks (Books.kept_takeNotice _)).replySpending _

theorem Safe.readFaultBody (h : s.Safe) (k : Nat) : (s.readFaultBody k).Safe := by
  unfold State.readFaultBody
  split
  · exact h.reply _ _
  · exact h.replySpending _

theorem Safe.ackBody (h : s.Safe) (k : Nat) : (s.ackBody k).Safe := by
  unfold State.ackBody
  split
  · exact h.reply _ _
  · next e _ =>
    split
    · exact h.reply _ _
    · have dropped := h.dropFault e.code
      exact (Safe.ite dropped.returnOnline dropped).reply _ _

theorem Safe.readStatusBody (h : s.Safe) (part n : Nat) : (s.readStatusBody part n).Safe := by
  unfold State.readStatusBody
  split
  · exact h.reply _ _
  · exact h.reply _ _
  · exact h.replySpending _
  · exact h.replySpending _
  · refine Safe.ite (h.reply _ _) ?_
    split <;> exact h.reply _ _
  · exact h.reply _ _

/-! ### The line, and frames (R8 to R20) -/

theorem Safe.becomeIdle (h : s.Safe) : s.becomeIdle.Safe := by
  have kept := Books.kept_heardIdle s.books s.line.framingLost
  have idle := (h.endLine (l := s.line.atIdle) rfl).onBooks (f := (·.heardIdle s.line.framingLost)) kept
  unfold State.becomeIdle
  dsimp only
  split
  · next waits => exact idle.goOnline (idle.post.wait waits)
  · exact idle


theorem Safe.beginFrame (h : s.Safe) (begins : s.canBegin = true) : ((s.setLine { s.line with
    level := .busy, role := .sender, assembler := { Assembler.empty with bits := [false] }, slot := .none }).onBooks
      Books.beginAttempt).Safe := by
  simp only [State.canBegin, Bool.and_eq_true] at begins
  obtain ⟨⟨⟨line, -⟩, -⟩, -⟩ := begins
  have sends : (s.setLine { s.line with
      level := .busy, role := .sender, assembler := { Assembler.empty with bits := [false] }, slot := .none }).Safe :=
    ⟨h.lane.setLine _, ⟨h.post.severe, h.post.offline, h.post.wait, fun _ => line, h.post.reset⟩⟩
  exact sends.onBooks (Books.kept_beginAttempt _)

/-- Only a sender misreads a bit of its own (R11, R13). -/
theorem sender_of_misreads {sent : Bool} {char : Nat} {bit : BitRead} (misreads : s.misreads sent char bit = true) :
    s.line.role = .sender := by
  simp only [State.misreads, Bool.and_eq_true, decide_eq_true_eq] at misreads
  exact misreads.1.1

theorem Safe.loseArbitration (h : s.Safe) {char : Nat} {bit : BitRead} (lost : s.outranked char bit = true) :
    (s.loseArbitration char bit).Safe := by
  obtain ⟨wait, running⟩ := h.post.onLine (h.post.sender (sender_of_misreads lost))
  have kept := Books.kept_attemptLost s.books s.filling
  have receives := (h.setLine (l := { s.line.pass (s.readBack char bit) with
    role := .receiver (char < 3), assembler := lostAssembler s.sentChars char bit.place })
    (fun sender => by cases sender)).onBooks (f := (·.attemptLost s.filling)) kept
  exact Safe.ite receives (Safe.raiseOffline receives.lane (kept.onlineWait.trans wait) (fun sender => by cases sender)
    running _)

theorem Safe.abandonFrame (h : s.Safe) {char : Nat} {bit : BitRead} (failed : s.driveFails char bit = true) :
    (s.abandonFrame char bit).Safe := by
  have halted := (h.endLine (l := (s.line.pass (s.readBack char bit)).frameOver .none) rfl).raiseHalting
    (h.post.sender (sender_of_misreads failed)) (c := .lineDrive) rfl
  exact halted.onBooks (f := fun b => b.attemptEnds _ false false) (Books.kept_attemptEnds _ _ _ _)

theorem Safe.headerEnds (h : s.Safe) (samples : List Bool) (cs : List RxChar) : (s.headerEnds samples cs).Safe := by
  unfold State.headerEnds
  split
  · have given := h.endLine (l := (s.line.restart.pass samples).frameOver .none) rfl
    exact Safe.ite (given.onBooks (Books.kept_setRepeat _ _ _)) given
  · exact Safe.ite (h.setLine fun sender => (s.line.restart.pass_role samples).symm.trans sender) h
  all_goals exact h

theorem Safe.nakFrame (h : s.Safe) (heard : List Bool) (x : SlotSamples) : (s.nakFrame heard x).Safe :=
  Safe.ite ((h.endLine rfl).onBooks (Books.kept_staleRequest _)) (h.endLine rfl)

/-- A frame heard reaches the tables alone, whatever its owner makes of it. -/
theorem Safe.receive (h : s.Safe) (q : Sender) (f : Frame) {hand : Books → Books}
    (kept : s.books.Kept (hand s.books)) : (s.receive q f hand).Safe := by
  have taken : (s.takeFrame q f hand).Safe :=
    (h.endLine (l := s.line.frameEnds stopSamples q.slots .ack) rfl).onBooks
      ((Books.Kept.ite kept (.refl _)).trans (Books.kept_remember _ _ _))
  exact Safe.ite h (Safe.ite (h.endLine rfl) (Safe.ite h (Safe.ite taken (h.nakFrame _ _))))

theorem Safe.receiveReport (h : s.Safe) (q : Sender) (n : Nat) (r : ChestReport) : (s.receiveReport q n r).Safe :=
  Safe.ite (h.receive q _ (Books.kept_heardReport _ _ _ _ _)) (Safe.ite (h.endLine rfl) h)

/-! ### The field inputs, and the timed moments (R87 to R98, R103, R121) -/

/-- The assembler of words touches no settle request. -/
theorem foldl_clock_request (now : Time) (edges : List SampleEdge) (w : Weigh) :
    (edges.foldl (Weigh.clock now) w).request = w.request := by
  induction edges generalizing w with
  | nil => rfl
  | cons e edges ih =>
    rw [List.foldl_cons, ih]
    unfold Weigh.clock
    split
    · rfl
    · split
      · rfl
      · split
        · rfl
        · rw [Weigh.complete_eq]

theorem Safe.setPins (h : s.Safe) {p : Pins} (hold : p.hold = s.pins.hold) : (s.setPins p).Safe :=
  ⟨h.lane.congr rfl rfl hold rfl rfl, h.post.of_kept (.refl _) id rfl⟩

theorem Safe.withdrawRequest (h : s.Safe) : s.withdrawRequest.Safe :=
  h.flows s.flows_withdrawRequest h.lane.withdrawRequest

theorem Safe.chestChanges (h : s.Safe) (level : Bool) : (s.chestChanges level).Safe := by
  have seen : (s.setPins { s.pins with chest := level }).Safe := h.setPins rfl
  have ended : (if level then (s.setPins { s.pins with chest := level }).endZeroing
      else s.setPins { s.pins with chest := level }).Safe :=
    Safe.ite (Safe.ite (seen.withdrawRequest.reply _ _) seen) seen
  exact Safe.ite ended (ended.flows (flows_chestEdgeAt _ level) (ended.lane.chestEdgeAt level))

theorem Safe.holdBegins (h : s.Safe) : s.holdBegins.Safe := by
  have shut : ((s.setPins { s.pins with hold := true }).setFiller s.filler.held).PostLaw :=
    h.post.of_kept (.refl _) id rfl
  have flows := (flows_setMarker ((s.setPins { s.pins with hold := true }).setFiller s.filler.held)
    s.marker.held).trans (flows_withdrawLane _)
  have line : s.holdBegins.line = s.line := flows.line
  exact ⟨h.lane.holdBegins, shut.of_kept flows.books (by rw [line]; exact id) flows.inReset⟩

/-- With HOLD over, a gate may open again. -/
theorem Safe.holdEnds (h : s.Safe) : s.holdEnds.Safe := by
  have free : (s.setPins { s.pins with hold := false }).Safe :=
    ⟨⟨fun gate => ⟨(h.lane.gate gate).1, rfl⟩, fun hold => absurd hold Bool.false_ne_true, h.lane.fill⟩,
      h.post.of_kept (.refl _) id rfl⟩
  have edge := flows_chestEdgeAt (s.setPins { s.pins with hold := false }) s.pins.chest
  have seen := free.flows edge (free.lane.chestEdgeAt s.pins.chest)
  have restarts {t : State} (k : t.Safe) (hold : t.pins.hold = false) : t.restart.Safe :=
    k.flows t.flows_restart (k.lane.restart hold)
  unfold State.holdEnds
  dsimp only
  split
  · exact free
  · split
    · exact restarts free rfl
    · exact restarts seen (congrArg Pins.hold edge.pins)

theorem Safe.goodSample (h : s.Safe) : s.goodSample.Safe := by
  unfold State.goodSample
  split
  · next sc x _ _ =>
    have sampled := (h.setWeigh (w := s.weigh.takeSample sc x.count s.books.time) id).onBooks
      (f := (·.sampleSeen (saturatedCount x.count))) (Books.kept_sampleSeen _ _)
    have updated := sampled.flows (flows_readingUpdate _) sampled.lane.readingUpdate
    dsimp only
    split
    · next raises =>
      rw [Bool.and_eq_true] at raises
      exact updated.raiseSaturation raises.2
    · exact updated
  · exact h

theorem Safe.loseSamples (h : s.Safe) : s.loseSamples.Safe := by
  have lost := h.setWeigh (w := s.weigh.lose) id
  unfold State.loseSamples
  dsimp only
  split
  · next line => exact lost.raiseHalting line rfl
  · exact lost

theorem Safe.settleSlow (h : s.Safe) : s.settleSlow.Safe := by
  refine (h.setWeigh (w := { s.weigh with request := s.weigh.request.map (fun q => { q with slow := true }) })
    ?_).onBooks (Books.kept_raiseFault _ rfl)
  cases s.weigh.request <;> exact id

/-! ### One row, and one step -/

/-- Every command, event and frame keeps the law of the gates. -/
theorem safe_exec (i : Instr) (h : s.Safe) : ∃ t, exec i s = .next t ∧ t.Safe := by
  have command := safe_hostCommand h
  cases i with
  | configure p => exact ⟨_, rfl, command _ _ _ fun _ k r c => k.configureBody (configure_state c) r _⟩
  | goOnline p => exact ⟨_, rfl, command _ _ _ fun _ k _ c => k.goOnlineBody (goOnline_state c)⟩
  | openInvoice p => exact ⟨_, rfl, command _ _ _ fun _ k _ _ => k.openBody _⟩
  | abandonInvoice p => exact ⟨_, rfl, command _ _ _ fun _ k _ _ => k.abandonBody _⟩
  | closeInvoice p => exact ⟨_, rfl, command _ _ _ fun _ k _ _ => k.closeBody _⟩
  | releaseInvoice p => exact ⟨_, rfl, command _ _ _ fun _ k _ _ => k.releaseBody _⟩
  | startChest p => exact ⟨_, rfl, command _ _ _ fun _ k _ c => k.startBody (startChest_state c) _⟩
  | abortChest p => exact ⟨_, rfl, command _ _ _ fun _ k _ _ => k.abortBody⟩
  | voidChest p => exact ⟨_, rfl, command _ _ _ fun _ k _ _ => k.voidBody _ _⟩
  | recordSample p => exact ⟨_, rfl, command _ _ _ fun _ k _ _ => k.sampleBody _ _ _⟩
  | remark p => exact ⟨_, rfl, command _ _ _ fun _ k _ _ => k.remarkBody _ _⟩
  | binFill p => exact ⟨_, rfl, command _ _ _ fun _ k _ _ => k.binBody _ _ _ _⟩
  | binEmpty p => exact ⟨_, rfl, command _ _ _ fun _ k _ _ => k.binBody _ _ _ _⟩
  | binWithdraw p => exact ⟨_, rfl, command _ _ _ fun _ k _ _ => k.binBody _ _ _ _⟩
  | zeroScale p => exact ⟨_, rfl, command _ _ _ fun _ k _ _ => k.zeroBody⟩
  | readInvoice p => exact ⟨_, rfl, command _ _ _ fun _ k _ _ => k.readInvoiceBody _⟩
  | readChest p => exact ⟨_, rfl, command _ _ _ fun _ k _ _ => k.readChestBody _ _ _⟩
  | readBin p => exact ⟨_, rfl, command _ _ _ fun _ k _ _ => Safe.ite (k.replySpending _) (k.reply _ _)⟩
  | readLotSheet p => exact ⟨_, rfl, command _ _ _ fun _ k _ _ => k.readLotBody _ _ _⟩
  | readNotice p => exact ⟨_, rfl, command _ _ _ fun _ k _ _ => k.readNoticeBody⟩
  | readFault p => exact ⟨_, rfl, command _ _ _ fun _ k _ _ => k.readFaultBody _⟩
  | ackFault p => exact ⟨_, rfl, command _ _ _ fun _ k _ _ => k.ackBody _⟩
  | readStatus p => exact ⟨_, rfl, command _ _ _ fun _ k _ _ => k.readStatusBody _ _⟩
  | resetStation p => exact ⟨_, rfl, command _ _ _ fun _ _ _ _ => safe_enterReset _⟩
  | unknownCommand code p => exact ⟨_, rfl, Safe.ite h (command _ _ _ fun _ k _ _ => k)⟩
  | commandDiscarded bytes midByte => exact ⟨_, rfl, Safe.ite (h.setPort _) h⟩
  | readResponse clocked =>
    exact ⟨_, rfl, h.lane.congr rfl rfl rfl rfl rfl, h.post.of_kept (.refl _) id rfl⟩
  | responseReady => exact ⟨_, rfl, h.setPort _⟩
  | reset => exact ⟨_, rfl, safe_enterReset s⟩
  | resetEnd station rate =>
    refine ⟨_, rfl, ?_⟩
    split
    · next reset => exact h.leaveReset reset _
    · exact h
  | lineIdle => exact ⟨_, rfl, Safe.ite h.becomeIdle h⟩
  | lineHeld => exact ⟨_, rfl, Safe.ite ((h.endLine rfl).onBooks (Books.kept_raiseFault _ rfl)) h⟩
  | beginFrame =>
    refine ⟨_, rfl, ?_⟩
    split
    · next begins => exact h.beginFrame begins
    · exact h
  | arbitrationLost char bit =>
    refine ⟨_, rfl, ?_⟩
    split
    · next lost => exact h.loseArbitration lost
    · exact h
  | lineDrive char bit =>
    refine ⟨_, rfl, ?_⟩
    split
    · next failed => exact h.abandonFrame failed
    · exact h
  | frameLost samples => exact ⟨_, rfl, Safe.ite (h.endLine rfl) h⟩
  | frameFiltered samples => exact ⟨_, rfl, Safe.ite (h.headerEnds _ _) h⟩
  | frameNaked samples => exact ⟨_, rfl, Safe.ite (h.nakFrame _ _) h⟩
  | attemptEnd ack nak =>
    exact ⟨_, rfl, Safe.ite ((h.endLine rfl).onBooks (Books.kept_attemptEnds _ _ _ _)) h⟩
  | closeCallFrame q n round packed planned => exact ⟨_, rfl, h.receive q _ (Books.kept_heardCall _ _ _ _)⟩
  | closedFrame q n status packed missing net => exact ⟨_, rfl, h.receive q _ (Books.kept_heardClosed _ _ _ _ _ _ _)⟩
  | tallyFrame q n answerTo planned high packed free inProgress net =>
    exact ⟨_, rfl, h.receive q _ (Books.kept_heardTally _ _ _ _ _)⟩
  | claimFrame q n planned first count => exact ⟨_, rfl, h.receive q _ (Books.kept_heardClaim _ _ _ _ _ _ _)⟩
  | chestFrame q n serial gross tare net flags draws => exact ⟨_, rfl, h.receiveReport q _ _⟩
  | voidFrame q n serial => exact ⟨_, rfl, h.receive q _ (Books.kept_heardVoid _ _ _ _)⟩
  | sampleFrame q n serial weight => exact ⟨_, rfl, h.receive q _ (Books.kept_heardSample _ _ _ _)⟩
  | markFrame q n serial status => exact ⟨_, rfl, h.receive q _ (Books.kept_heardMark _ _ _ _ _)⟩
  | binFrame q n bin action batch quantity => exact ⟨_, rfl, h.receive q _ (Books.kept_binAction _ _ _ _ _)⟩
  | censusFrame q n planned => exact ⟨_, rfl, h.receive q _ (Books.kept_heardCensus _ _ _ _)⟩
  | censusWindowEnd n => exact ⟨_, rfl, h.atMoment _ fun _ k => k.onBooks (Books.kept_endCensusWindow _ n)⟩
  | closeWindowEnd n => exact ⟨_, rfl, h.atMoment _ fun _ k => k.onBooks (Books.kept_endCloseWindow _ n)⟩
  | extensionEnd n => exact ⟨_, rfl, h.atMoment _ fun _ k => k.onBooks (Books.kept_endExtension _ n)⟩
  | sampleWord edges =>
    exact ⟨_, rfl, Safe.ite (h.setWeigh (by rw [foldl_clock_request]; exact id)) h⟩
  | goodSample => exact ⟨_, rfl, h.atMoment _ fun _ k => k.goodSample⟩
  | sampleLoss => exact ⟨_, rfl, h.atMoment _ fun _ k => k.loseSamples⟩
  | settleComplete =>
    exact ⟨_, rfl, h.atMoment _ fun u k => k.flows u.flows_completeSettle k.lane.completeSettle⟩
  | settleSlow => exact ⟨_, rfl, h.atMoment _ fun _ k => k.settleSlow⟩
  | zeroScaleTimeout => exact ⟨_, rfl, h.atMoment _ fun _ k => k.withdrawRequest.reply _ _⟩
  | noFlow => exact ⟨_, rfl, h.atMoment _ fun u k => k.flows u.flows_findNoFlow k.lane.findNoFlow⟩
  | rejectPulseEnd =>
    exact ⟨_, rfl, h.atMoment _ fun u k => k.flows u.flows_enterClear (LaneLaw.enterClear k.lane.request)⟩
  | chestEdge level => exact ⟨_, rfl, Safe.ite h (h.chestChanges level)⟩
  | holdActive => exact ⟨_, rfl, Safe.ite h h.holdBegins⟩
  | holdEnd => exact ⟨_, rfl, Safe.ite h.holdEnds h⟩
  | encoderPulse =>
    refine ⟨_, rfl, ?_⟩
    split
    · exact Safe.ite h (h.flows (s.flows_pulse _) (h.lane.pulse _))
    · exact h
  | shiftDone dataIn =>
    refine ⟨_, rfl, ?_⟩
    split
    · exact Safe.ite (h.flows (s.flows_shiftDone _ _ _) (h.lane.shiftDone _ _ _)) h
    · exact h
  | firingPulseEnd => exact ⟨_, rfl, Safe.ite (h.setMarker _) h⟩
  | startConfirmed samples => exact ⟨_, rfl, Safe.ite (h.setLine (s.line.seek_sender samples _)) h⟩

theorem Safe.of_exec {i : Instr} {t : State} (h : s.Safe) (run : exec i s = .next t) : t.Safe := by
  obtain ⟨u, ran, safe⟩ := safe_exec i h
  obtain rfl : u = t := by simpa using ran.symm.trans run
  exact safe

/-- A step keeps the law: it runs the row at the front of the queue, the timed row that is due, or 1 ms. -/
theorem Safe.step {t : State} (h : s.Safe) (run : step s = .next t) : t.Safe := by
  cases pending : s.pending with
  | nil =>
    rw [step_idle pending] at run
    unfold State.idle at run
    split at run
    · exact h.of_exec run
    · obtain rfl : s.idleTick = t := by simpa using run
      exact Safe.ite h (h.elapse 1)
  | cons i rest =>
    unfold Machine.step at run
    rw [pending] at run
    have taken : (s.setPending rest).Safe :=
      ⟨h.lane.congr rfl rfl rfl rfl rfl, h.post.of_kept (.refl _) id rfl⟩
    exact taken.of_exec run

end State

/-! ### O59 -/

theorem FillStep.feeds_iff (k : FillStep) : k.feeds = true ↔ k = .topup ∨ ∃ n, k = .feed n := by
  cases k <;> simp [FillStep.feeds]

theorem FillStep.inFill_of_feeds {k : FillStep} (feeds : k.feeds = true) : k.inFill = true := by
  rcases k.feeds_iff.1 feeds with rfl | ⟨n, rfl⟩ <;> rfl

/-- An open gate is in a feeding step, which is one of a fill, which runs only in ONLINE, where no severe fault stands. -/
theorem State.Safe.open_gate {s : State} (h : s.Safe) (gate : s.filler.gate.isOpen = true) :
    s.books.anySevere = false ∧ s.pins.hold = false ∧ s.books.station = .online
      ∧ (s.filler.step = .topup ∨ ∃ k, s.filler.step = .feed k) := by
  obtain ⟨feeds, hold⟩ := h.lane.gate gate
  have online := h.lane.fill (FillStep.inFill_of_feeds feeds)
  exact ⟨h.post.severe (by rw [online]; decide) (by rw [online]; decide), hold, online,
    (FillStep.feeds_iff _).1 feeds⟩

/-- Settles O59: each step keeps the law in its two halves, and the law of an open gate. -/
theorem gatesStaySafe : Obligations.GatesStaySafe :=
  ⟨fun s t law run => t.gatesSafe_iff.2 (((s.gatesSafe_iff).1 law).step run),
    fun s law => (s.gatesSafe_iff.1 law).open_gate⟩

end Sys2Proof.Machine
end

section
/-! PROOFS. The reset state meets the laws of the lane and of the tables: nothing runs, nothing stands, and every table is
empty (R23, R34, R54, R100, R101, R138, R165, R178; O57). -/

namespace Sys2Proof.Machine

theorem State.reset_gatesSafe : State.reset.gatesSafe :=
  (State.gatesSafe_iff _).2
    ⟨LaneLaw.resting rfl rfl fun _ => rfl,
      ⟨fun _ _ => rfl, fun _ => rfl, fun wait => absurd wait Bool.false_ne_true, fun sender => (by cases sender),
        fun reset => absurd reset Bool.false_ne_true⟩⟩

theorem Books.reset_lawful : Books.reset.lawful := ⟨⟨Nat.zero_le _, Nat.zero_le _⟩, Nat.zero_le _, .nil⟩

theorem Books.reset_invoiceLaw : Books.reset.invoiceLaw :=
  ⟨Nat.zero_le _, .nil, fun _ mem => absurd mem List.not_mem_nil⟩

theorem Books.reset_serialLaw : Books.reset.serialLaw :=
  ⟨fun _ mem => absurd mem List.not_mem_nil, fun _ mem => absurd mem List.not_mem_nil,
    fun _ mem => absurd mem List.not_mem_nil⟩

theorem State.reset_inflightLaw : State.reset.inflightLaw := by
  intro v mem
  have zero : v = 0 := by simpa [State.reset, Filler.reset] using mem
  omega

theorem State.reset_storeLaw : State.reset.storeLaw :=
  ⟨.nil, Nat.zero_le _, fun filling => absurd filling Bool.false_ne_true⟩

theorem State.reset_reservationLaw : State.reset.reservationLaw :=
  ⟨Nat.zero_le _, fun f fill => absurd fill.symm (Option.some_ne_none f), fun _ mem => absurd mem List.not_mem_nil⟩

/-- Settles O57: law by law. -/
theorem resetMeetsTheLaws : Obligations.ResetMeetsTheLaws :=
  ⟨State.reset_gatesSafe, Books.reset_lawful, Books.reset_invoiceLaw, State.reset_inflightLaw, State.reset_storeLaw,
    State.reset_reservationLaw, Books.reset_serialLaw⟩

end Sys2Proof.Machine
end

section
/-! PROOFS. The lane's shared operations in full: settle requests, the cut of a fill, and the entries to REJECT and CLEAR (R95,
R112, R117, R119; O18, O19). -/

namespace Sys2Proof.Machine

/-! ### Settle requests (R95) -/

theorem Requester.ofLane_iff (who : Requester) : who.ofLane = true ↔ who ≠ .zeroScale := by
  cases who <;> simp [Requester.ofLane]

namespace State

variable {s : State}

theorem laneAsks_iff (s : State) : s.weigh.request.any (fun q => q.who.ofLane) = true
    ↔ ∃ q, s.weigh.request = some q ∧ q.who ≠ .zeroScale := by
  simp [Option.any_eq_true, Requester.ofLane_iff]

theorem withdrawLane_eq (s : State) : s.withdrawLane = { s with weigh :=
    (if ∃ q, s.weigh.request = some q ∧ q.who ≠ .zeroScale then { s.weigh with request := none, timer := 0 }
     else s.weigh) } := by
  unfold withdrawLane
  simp only [laneAsks_iff]
  split <;> rfl

theorem askSettle_of_hold (hold : s.pins.hold = true) (who : Requester) : s.askSettle who = s := if_pos hold

theorem askSettle_of_free (free : s.pins.hold = false) (who : Requester) : s.askSettle who = { s with
    weigh := { s.weigh with request := some ⟨who, s.books.time, false⟩, timer := 0 } } := if_neg (by simp [free])

/-! ### The cut (R112) -/

/-- The cut withdraws the lane's request as on its own. -/
theorem cutFill_weigh (s : State) : s.cutFill.weigh = s.withdrawLane.weigh := by
  rw [withdrawLane_eq]
  unfold cutFill
  rw [modifyFill_weigh, withdrawLane_eq]
  rfl

end State

/-- The entry of a component that is there is changed in its place. -/
theorem Fill.modifyComp_eq {f : Fill} {k : Nat} {c : CompState} (present : f.comps[k - 1]? = some c)
    (g : CompState → CompState) : f.modifyComp k g = { f with comps := f.comps.set (k - 1) (g c) } := by
  rw [Fill.modifyComp, List.modify_eq_set_getElem?, present]
  rfl

theorem Fill.comp?_eq {f : Fill} {k : Nat} (low : 1 ≤ k) : f.comp? k = f.comps[k - 1]? := if_neg (by omega)

/-- The settled net of the component before, 0 before the first (R108). -/
theorem Fill.netBeforeComp_eq (f : Fill) {k : Nat} (low : 1 ≤ k) : f.netBeforeComp k
    = if k = 1 then 0 else ((f.comps[k - 2]?).bind (·.settled)).getD 0 := by
  unfold Fill.netBeforeComp Fill.comp?
  split
  · next first => rw [if_pos (by omega)]; rfl
  · next later => rw [if_neg (by omega), Nat.sub_sub]

theorem Fill.cut_of_calm (f : Fill) {st : FillStep}
    (calm : st ∈ ([.idle, .armed, .tare, .check, .accept, .reject, .mark, .clear] : List FillStep)) : f.cut st = f := by
  cases st <;> first | rfl | simp at calm

theorem Fill.cut_topup {f : Fill} {k : Nat} (chosen : f.topupComp = some k) :
    f.cut .topup = f.modifyComp k (fun c => { c with actual := c.actual + (f.lastNet.getD 0 - f.netBefore.getD 0) }) := by
  unfold Fill.cut
  dsimp only
  rw [chosen]

theorem Fill.drawn_iff (f : Fill) : f.drawn = true ↔ ∃ c ∈ f.comps, c.opened = true := List.any_eq_true

namespace State

variable {s : State} {f : Fill}

/-! ### REJECT (R116, R117) -/

/-- The entry to REJECT: the notice, the report of what has drawn, and what ends with the fill (R117). -/
theorem enterReject_eq (filling : s.filler.fill = some f) (why : RejectReason) : s.enterReject why = { s with
    books := ((if ∃ c ∈ f.comps, c.opened = true
        then (s.books.raiseNotice .chestRejected (some f.invoice) none (some why.num)).queueFrame none
          (.chest f.invoice ⟨0, 0, 0, 0, 0, f.draws⟩)
        else s.books.raiseNotice .chestRejected (some f.invoice) none (some why.num)).dropReservation).chestLost f,
    weigh := s.withdrawLane.weigh,
    filler := { s.filler with step := .reject, fill := some { f with reason := some why }, gate := .closed,
                              flow := none, rejectTimer := 0 } } := by
  have reasoned : ((s.withdrawLane.toStep .reject).modifyFill (fun f => { f with reason := some why })).filler.fill
      = some { f with reason := some why } := by
    rw [modifyFill_filler, toStep_filler, withdrawLane_filler, filling]
    rfl
  have told (b : Books) : b.chestLost { f with reason := some why } = b.chestLost f := Books.chestLost_congr b rfl
  unfold enterReject
  dsimp only
  rw [reasoned]
  simp only [queueReport, Fill.drawn_iff]
  split
  · simp only [onBooks, setBooks, setFiller, modifyFill, toStep, told, withdrawLane_eq, filling]
    rfl
  · simp only [onBooks, setBooks, setFiller, modifyFill, toStep, told, withdrawLane_eq, filling]
    rfl

/-! ### CLEAR (R119) -/

theorem enterClear_of_chest (high : s.pins.chest = true) : s.enterClear = s.toStep .clear := if_pos high

theorem enterClear_of_halt (low : s.pins.chest = false) (halted : s.books.station = .halt) : s.enterClear = s.goIdle := by
  unfold enterClear
  dsimp only
  rw [if_neg (by rw [toStep_pins, low]; decide), if_pos (show (s.toStep .clear).books.station = .halt from halted)]
  rfl

theorem enterClear_of_low (low : s.pins.chest = false) (running : s.books.station ≠ .halt) :
    s.enterClear = (s.toStep .clear).askSettle .capture := by
  unfold enterClear
  dsimp only
  rw [if_neg (by rw [toStep_pins, low]; decide), if_neg (show (s.toStep .clear).books.station ≠ .halt from running)]

end State

/-! ### The end of a fill as it is told (R65, R154; log 44) -/

theorem State.filling_iff (s : State) (n : Nat) : s.filling = some n ↔ s.filler.step.inFill = true
    ∧ ∃ f, s.filler.fill = some f ∧ f.invoice = n ∧ f.freed = false := by
  unfold State.filling
  split
  · next inFill =>
    simp only [inFill, true_and, Option.bind_eq_some_iff, Fill.held]
    refine exists_congr fun f => and_congr_right fun _ => ?_
    cases f.freed <;> simp
  · next resting => simp [resting]

namespace Books

variable {b : Books} {n : Nat}

theorem fillEnded_absent (absent : b.invoice? n = none) : b.fillEnded n = b := by simp [fillEnded, absent]

section Found
variable {r : Invoice} (found : b.invoice? n = some r)
include found

theorem fillEnded_quiet (quiet : r.state ≠ .closing ∨ r.role = none) : b.fillEnded n = b := by
  rcases quiet with elsewhere | roleless
  · simp [fillEnded, found, elsewhere]
  · simp [fillEnded, found, roleless]

theorem fillEnded_peer (closing : r.state = .closing) (peer : r.role = some .peer) :
    b.fillEnded n = b.queueTally n 2 0 := by simp [fillEnded, found, closing, peer]

theorem fillEnded_closer (closing : r.state = .closing) (closer : r.role = some .closer) :
    b.fillEnded n = b.recordAnswer n (b.ownAnswer n 0) := by simp [fillEnded, found, closing, closer]

/-- The closer's own entry, from the own PACKED records and the serials surrendered (R64, R151). -/
theorem ownAnswer_eq (busy : Nat) {cs : List Chest}
    (hcs : cs = b.chests.filter (fun c => c.invoice = n && c.serial?.isSome && c.origin = .own)) :
    b.ownAnswer n busy = { station := b.straps.station, inProgress := busy, packed := cs.length,
                           free := min 16 r.surrendered, net := (cs.map (·.net)).sum } := by
  have own : b.ownPacked n = cs := by
    rw [hcs, ownPacked, packed, List.filter_filter]
    exact List.filter_congr fun c _ => Bool.and_comm _ _
  simp only [ownAnswer, ownPackedCount, ownNet, closeFree, own, found, Option.map_some, Option.getD_some]

end Found

end Books

/-! ### O19 -/

/-- Settles O19: each shared operation of the lane, and the end of a fill by the record's state and role. -/
theorem laneCutsRejectsAndClears : Obligations.LaneCutsRejectsAndClears := by
  refine ⟨fun s f filling => ?_, fun f k c low present => ⟨fun st hst => ?_, fun chosen => ?_⟩,
    fun f st calm => f.cut_of_calm calm, fun s f why filling => State.enterReject_eq filling why,
    fun s => ⟨State.enterClear_of_chest, State.enterClear_of_halt, fun low running hold => ?_,
      fun low running free => ?_⟩,
    fun s st who => ⟨rfl, rfl, s.withdrawLane_eq, fun hold => State.askSettle_of_hold hold who,
      fun free => State.askSettle_of_free free who⟩,
    Books.chestLost_eq, fun s n => ?_,
    fun b n => ⟨rfl, Books.fillEnded_absent, fun r found => ⟨Books.fillEnded_quiet found, Books.fillEnded_peer found,
      fun closing closer cs hcs => ?_⟩⟩⟩
  · rw [State.cutFill_eq filling, State.withdrawLane_eq]
  · rw [← f.netBeforeComp_eq low]
    rcases hst with rfl | rfl <;> exact Fill.modifyComp_eq present _
  · rw [Fill.cut_topup chosen]
    exact Fill.modifyComp_eq present _
  · rw [State.enterClear_of_low low running, State.askSettle_of_hold (s := s.toStep .clear) hold]
  · rw [State.enterClear_of_low low running, State.askSettle_of_free (s := s.toStep .clear) free]
    rfl
  · rw [State.filling_iff, ← FillStep.not_inFill_iff, Bool.not_eq_false]
  · rw [Books.fillEnded_closer found closing closer, Books.ownAnswer_eq found 0 hcs]

end Sys2Proof.Machine
end

section
/-! PROOFS. ABORT CHEST: a fill ends by its step and by what it has drawn (R122; O18). -/

namespace Sys2Proof.Machine

/-- The steps in which ABORT CHEST finds no chest that it may end (R122). -/
theorem FillStep.not_abortable_iff (k : FillStep) :
    k.abortable = false ↔ k ∈ ([.idle, .check, .accept, .reject, .mark, .clear] : List FillStep) := by
  cases k <;> simp [FillStep.abortable]

namespace State

variable {s : State} {f : Fill}

theorem exec_abortChest (p : Params) (s : State) :
    exec (.abortChest p) s = .next (s.hostCommand 0x21 p noData abortBody) := rfl

/-! ### The port takes no part in the end of a fill -/

theorem withdrawLane_setPort (s : State) (c : Port) : (s.setPort c).withdrawLane = s.withdrawLane.setPort c := by
  simp only [withdrawLane_eq]
  rfl

theorem setBooks_setPort (s : State) (c : Port) (b : Books) : (s.setPort c).setBooks b = (s.setBooks b).setPort c := rfl

theorem cutFill_setPort (filling : s.filler.fill = some f) (c : Port) : (s.setPort c).cutFill = s.cutFill.setPort c := by
  rw [cutFill_eq (s := s.setPort c) filling, cutFill_eq filling, withdrawLane_setPort]
  rfl

theorem enterReject_setPort (filling : s.filler.fill = some f) (c : Port) (why : RejectReason) :
    (s.setPort c).enterReject why = (s.enterReject why).setPort c := by
  rw [enterReject_eq (s := s.setPort c) filling, enterReject_eq filling, withdrawLane_setPort]
  rfl

theorem enterClear_setPort (s : State) (c : Port) : (s.setPort c).enterClear = s.enterClear.setPort c := by
  simp only [enterClear, askSettle, apply_ite (fun t => State.setPort t c)]
  rfl

/-- The entry to CLEAR asks nothing of the step that it leaves. -/
theorem enterClear_toStep (s : State) : (s.toStep .clear).enterClear = s.enterClear := rfl

/-! ### A fill in ARMED to TOPUP ended (R122, R123) -/

theorem abortFill_drawn (filling : s.filler.fill = some f) (drawn : f.drawn = true) (why : RejectReason) :
    s.abortFill why = s.cutFill.enterReject why := by
  have kept : (f.cut s.filler.step).drawn = true := (f.cut_keeps _).2.2.trans drawn
  exact if_pos (by rw [cutFill_eq filling]; exact kept)

section Undrawn
variable (filling : s.filler.fill = some f) (undrawn : f.drawn = false)
include filling undrawn

theorem cutFill_undrawn : s.cutFill.filler.fill.any (fun f => f.drawn) = false := by
  rw [cutFill_eq filling]
  exact (f.cut_keeps _).2.2.trans undrawn

/-- In ARMED the fill is dropped, and the lane rests. -/
theorem abortFill_armed (armed : s.filler.step = .armed) (why : RejectReason) : s.abortFill why = { s with
    books := s.books.dropReservation.chestLost f,
    weigh := s.withdrawLane.weigh,
    filler := { s.filler with step := .idle, fill := none, gate := .closed, flow := none, rejectTimer := 0 } } := by
  unfold abortFill
  dsimp only
  rw [if_neg (by rw [cutFill_undrawn filling undrawn]; decide), if_pos armed, cutFill_eq filling, armed]
  rfl

/-- After ARMED the fill is dropped, and the scale is cleared. -/
theorem abortFill_undrawn (begun : s.filler.step ≠ .armed) (why : RejectReason) : s.abortFill why
    = (s.cutFill.setBooks (s.books.dropReservation.chestLost f)).enterClear := by
  have told : s.books.dropReservation.chestLost (f.cut s.filler.step) = s.books.dropReservation.chestLost f :=
    Books.chestLost_congr _ (f.cut_keeps _).2.1
  have ended : (s.cutFill.toStep .clear).endUndrawn
      = (s.cutFill.setBooks (s.books.dropReservation.chestLost f)).toStep .clear := by
    rw [cutFill_eq filling, ← told]
    rfl
  unfold abortFill
  dsimp only
  rw [if_neg (by rw [cutFill_undrawn filling undrawn]; decide), if_neg begun, ended, enterClear_toStep]

end Undrawn

/-- Past the first four checks the fill is ended, and the answer made. -/
theorem abortBody_of_abortable (abortable : s.filler.step.abortable = true) :
    s.abortBody = (s.abortFill .aborted).reply .ok [] := if_pos abortable

theorem abortBody_of_not_abortable (unabortable : s.filler.step.abortable = false) :
    s.abortBody = s.reply .notActive [] := if_neg (by simp [unabortable])

end State

/-! ### O18 -/

/-- Settles O18: ABORT CHEST by the step of the lane and by whether the fill has drawn. -/
theorem abortChestEndsTheFill : Obligations.AbortChestEndsTheFill := by
  intro p s admitted
  simp only [State.exec_abortChest, State.hostCommand_admits admitted, ← FillStep.not_abortable_iff]
  refine ⟨fun unabortable => ?_, fun f filling abortable => ?_⟩
  · rw [State.abortBody_of_not_abortable (s := s.take _ _) unabortable, State.reply_take]
    rfl
  rw [State.abortBody_of_abortable (s := s.take _ _) (by simpa using abortable)]
  refine ⟨fun some => ⟨_, rfl, ?_⟩, fun none armed => ?_, fun none begun => ?_⟩
  · have drawn : f.drawn = true := f.drawn_iff.mpr some
    rw [State.abortFill_drawn (s := s.take _ _) filling drawn, State.take, State.cutFill_setPort filling,
      State.enterReject_setPort (by rw [State.cutFill_eq filling]), State.reply_some rfl]
    rfl
  · have undrawn : f.drawn = false := by simpa [Fill.drawn] using none
    rw [State.abortFill_armed (s := s.take _ _) filling undrawn armed, State.take, State.withdrawLane_setPort,
      State.reply_some rfl]
    rfl
  · have undrawn : f.drawn = false := by simpa [Fill.drawn] using none
    rw [State.abortFill_undrawn (s := s.take _ _) filling undrawn begun, State.take, State.cutFill_setPort filling,
      State.setBooks_setPort, State.enterClear_setPort, State.reply_some rfl]
    rfl

end Sys2Proof.Machine
end

section
/-! PROOFS. START CHEST: its checks in their order, the chest in progress, and ARMED (R81, R100, R102; O16). -/

namespace Sys2Proof.Machine

/-! ### The chest in progress (R81, R100) -/

theorem targetsFrom_length (T left : Nat) (l : List Component) : (targetsFrom T left l).length = l.length := by
  induction l generalizing left with
  | nil => rfl
  | cons c l ih =>
    cases l with
    | nil => rfl
    | cons d l => exact congrArg (· + 1) (ih _)

/-- The components paired with their targets: as many, and in order. -/
theorem map_snd_zip_targets (T : Nat) (l : List Component) : (l.zip (targets T l)).map (·.2) = targets T l :=
  List.map_snd_zip (targetsFrom_length T T l).le

/-- A component of a new fill, its cumulative target given (R100). -/
def Books.newComp (b : Books) (c : Component) (t cumulative : Nat) : CompState :=
  { feeder := b.feederOf c.bin, target := t, cumulative := cumulative, coarseCut := none, fineCut := none,
    settled := none, actual := 0, short := false, opened := false, fine := false }

theorem Books.newComps_length (b : Books) (sum : Nat) (l : List (Component × Nat)) :
    (b.newComps sum l).length = l.length := by
  induction l generalizing sum with
  | nil => rfl
  | cons d l ih => exact congrArg (· + 1) (ih _)

/-- The entry of each component: its cumulative target is the sum of the targets up to its own. -/
theorem Books.newComps_getElem? (b : Books) (sum : Nat) (l : List (Component × Nat)) (i : Nat) :
    (b.newComps sum l)[i]? = (l[i]?).map (fun d => b.newComp d.1 d.2 (sum + ((l.take (i + 1)).map (·.2)).sum)) := by
  induction l generalizing sum i with
  | nil => rfl
  | cons d l ih =>
    cases i with
    | zero => rfl
    | succ i =>
      rw [newComps, List.getElem?_cons_succ, List.getElem?_cons_succ, ih]
      simp only [List.take_succ_cons, List.map_cons, List.sum_cons, Nat.add_assoc]

theorem Books.newFill_comps_length (b : Books) (r : Invoice) (k : Nat) :
    (b.newFill r k).comps.length = (targets r.target r.recipe).length := by
  rw [← map_snd_zip_targets, List.length_map]
  exact b.newComps_length 0 _

theorem Books.newFill_comps_getElem? (b : Books) (r : Invoice) (k : Nat) {i t : Nat} {c : Component}
    (hc : r.recipe[i]? = some c) (ht : (targets r.target r.recipe)[i]? = some t) :
    (b.newFill r k).comps[i]? = some (b.newComp c t ((targets r.target r.recipe).take (i + 1)).sum) := by
  have pair : (r.recipe.zip (targets r.target r.recipe))[i]? = some (c, t) := List.getElem?_zip_eq_some.mpr ⟨hc, ht⟩
  have entry := b.newComps_getElem? 0 (r.recipe.zip (targets r.target r.recipe)) i
  rw [pair, List.map_take, map_snd_zip_targets, Nat.zero_add] at entry
  exact entry

/-! ### The bin checks of a recipe (R82) -/

namespace Books

variable {b : Books}

theorem binChecks_pass {l : List (Component × Nat)} (pass : ∀ d ∈ l, b.binCheck d.1.bin d.2 = none) :
    b.binChecks l = none := by
  induction l with
  | nil => rfl
  | cons d l ih =>
    rw [binChecks, pass d List.mem_cons_self]
    exact ih fun e he => pass e (List.mem_cons_of_mem d he)

/-- The first component refused gives the answer, and its bin. -/
theorem binChecks_refuse {pre post : List (Component × Nat)} {c : Component} {t : Nat} {st : Status}
    (pass : ∀ d ∈ pre, b.binCheck d.1.bin d.2 = none) (refused : b.binCheck c.bin t = some st) :
    b.binChecks (pre ++ (c, t) :: post) = some (st, c.bin) := by
  induction pre with
  | nil => rw [List.nil_append, binChecks, refused]
  | cons d pre ih =>
    rw [List.cons_append, binChecks, pass d List.mem_cons_self]
    exact ih fun e he => pass e (List.mem_cons_of_mem d he)

end Books

namespace State

variable {s : State} {n : Nat}

/-! ### The checks in their order (R102) -/

theorem remarking_iff (s : State) : s.remarking = true ↔ ∃ j, s.marker.job = some j ∧ j.requester = .remark := by
  simp [remarking, Option.any_eq_true]

theorem startCheck_busy (busy : s.filler.step ≠ .idle ∨ s.remarking = true) : s.startCheck n = .error (.busy, []) :=
  if_pos (by simpa using busy)

section Resting
variable (resting : s.filler.step = .idle) (unmarked : s.remarking = false)
include resting unmarked

theorem startCheck_absent (absent : s.books.invoice? n = none) : s.startCheck n = .error (.notActive, []) := by
  simp [startCheck, resting, unmarked, absent]

variable {r : Invoice} (found : s.books.invoice? n = some r)
include found

theorem startCheck_notActive (closed : r.state ≠ .active ∨ r.full = true) :
    s.startCheck n = .error (.notActive, []) := by
  simp [startCheck, resting, unmarked, found, closed]

variable (active : r.state = .active) (room : r.full = false)
include active room

theorem startCheck_tableFull (full : s.books.reservable = none) : s.startCheck n = .error (.tableFull, []) := by
  simp [startCheck, resting, unmarked, found, active, room, full]

variable {k : Nat} (reserved : s.books.reservable = some k)
include reserved

theorem startCheck_notSteady (unread : s.weigh.reading = none) : s.startCheck n = .error (.notSteady, []) := by
  simp [startCheck, resting, unmarked, found, active, room, reserved, unread]

variable (read : s.weigh.reading ≠ none)
include read

theorem startCheck_binRefused {st : Status} {bin : Nat}
    (refused : s.books.binChecks (r.recipe.zip (targets r.target r.recipe)) = some (st, bin)) :
    s.startCheck n = .error (st, be1 bin) := by
  simp [startCheck, resting, unmarked, found, active, room, reserved, read, refused]

theorem startCheck_taken (pass : s.books.binChecks (r.recipe.zip (targets r.target r.recipe)) = none) :
    s.startCheck n = .ok (r, k) := by
  simp [startCheck, resting, unmarked, found, active, room, reserved, read, pass]

end Resting

theorem startBody_error {st : Status} {data : List Byte} (refused : s.startCheck n = .error (st, data)) :
    s.startBody n = s.reply st data := by
  rw [startBody, refused]

theorem startBody_ok {r : Invoice} {k : Nat} (taken : s.startCheck n = .ok (r, k)) :
    s.startBody n = (s.armFill r k).reply .ok (be1 k) := by
  rw [startBody, taken]

/-! ### The command -/

theorem exec_startChest (p : Params) (s : State) :
    exec (.startChest p) s = .next (s.hostCommand 0x20 p noData (fun t => t.startBody (num2 p.stated 0))) := rfl

/-- START CHEST refused past the first four checks is answered, and does nothing else. -/
theorem exec_startChest_error {p : Params} (admitted : s.admits 0x20 p) {st : Status} {data : List Byte}
    (refused : s.startCheck (num2 p.stated 0) = .error (st, data)) :
    exec (.startChest p) s = .next (s.answers 0x20 p st data) := by
  rw [exec_startChest, hostCommand_admits admitted, startBody_error (s := s.take _ _) refused, reply_take]
  rfl

end State

/-! ### O16 -/

/-- Settles O16: START CHEST check by check, and the chest in progress that it makes. -/
theorem startChestArmsTheLane : Obligations.StartChestArmsTheLane := by
  rintro p s _ admitted rfl
  refine ⟨fun busy => ?_, fun resting others => ?_⟩
  · rw [← State.remarking_iff] at busy
    exact State.exec_startChest_error admitted (State.startCheck_busy busy)
  have unmarked : s.remarking = false := by
    rw [← Bool.not_eq_true, State.remarking_iff]
    exact fun ⟨j, job, remark⟩ => others j job remark
  refine ⟨fun closed => ?_, fun r found active room => ⟨fun full => ?_, fun k reserved => ⟨fun unread => ?_, fun read =>
    ⟨fun pre post c t st recipe pass refused => ?_, fun pass => ?_⟩⟩⟩⟩
  · refine State.exec_startChest_error admitted ?_
    cases found : s.books.invoice? (num2 p.stated 0) with
    | none => exact State.startCheck_absent resting unmarked found
    | some r => exact State.startCheck_notActive resting unmarked found (closed r found)
  · exact State.exec_startChest_error admitted (State.startCheck_tableFull resting unmarked found active room full)
  · exact State.exec_startChest_error admitted
      (State.startCheck_notSteady resting unmarked found active room reserved unread)
  · exact State.exec_startChest_error admitted (State.startCheck_binRefused resting unmarked found active room reserved
      read (by rw [recipe, Books.binChecks_refuse pass refused]))
  · have taken := State.startCheck_taken resting unmarked found active room reserved read (Books.binChecks_pass pass)
    have number : r.number = num2 p.stated 0 := (Books.invoice?_some found).2
    refine ⟨s.books.newFill r k, ?_, s.books.newFill_comps_length r k,
      fun i c t hc ht => s.books.newFill_comps_getElem? r k hc ht, ?_⟩
    · rw [State.exec_startChest, State.hostCommand_admits admitted, State.startBody_ok (s := s.take _ _) taken, ← number]
      rfl
    · rw [← number]
      rfl

end Sys2Proof.Machine
end

section
/-! PROOFS. FEED(k) and TOPUP fed by the net, and the feeders' outputs (R100, R101, R105 to R107, R121; O44). -/

namespace Sys2Proof.Machine

/-- The no-flow watch by the gate before: a rise of 5 with the gate open starts it again (R106). -/
theorem flowAt_eq (g : Gate) (flow : Option FlowWatch) (net : Int) : flowAt g.isOpen flow net
    = match flow with
      | none => ⟨net, 0⟩
      | some w => if g ≠ .closed ∧ w.reference + 5 ≤ net then ⟨net, 0⟩ else w := by
  cases flow with
  | none => rfl
  | some w => simp only [flowAt, Bool.and_eq_true, Gate.isOpen_iff, decide_eq_true_eq]

namespace State

variable {s : State} {f : Fill}

/-! ### The lane's record changed, and the net -/

theorem modifyFill_eq (filling : s.filler.fill = some f) (g : Fill → Fill) :
    s.modifyFill g = { s with filler := { s.filler with fill := some (g f) } } := by
  rw [modifyFill, filling]
  rfl

theorem net?_eq (filling : s.filler.fill = some f) {r : Reading} (read : s.weigh.reading = some r) {tare : Int}
    (tared : f.tare = some tare) : s.net? = some (r.weight - tare) := by
  rw [net?, read, filling, Option.bind_some, tared]

/-- Before the tare no net is known. -/
theorem net?_none (untared : s.filler.fill = none ∨ ∃ f, s.filler.fill = some f ∧ f.tare = none) : s.net? = none := by
  have absent : s.filler.fill.bind (·.tare) = none := by
    rcases untared with empty | ⟨f, filling, tare⟩
    · rw [empty]; rfl
    · rw [filling]; exact tare
  rw [net?, absent]
  cases s.weigh.reading <;> rfl

/-! ### FEED(k) (R105, R106) -/

section Component
variable (filling : s.filler.fill = some f) {k : Nat} (low : 1 ≤ k) {c : CompState} (present : f.comps[k - 1]? = some c)
include filling low present

theorem comp_of_filling : s.filler.fill.bind (fun f => f.comp? k) = some c := by
  rw [filling, Option.bind_some, f.comp?_eq low, present]

variable {net : Int}

/-- At the fine cutoff the feed ends in a settle. -/
theorem feedGate_settle (known : s.net? = some net) (reached : c.fineCut.getD 0 ≤ net) :
    s.feedGate k = s.enterSettle k := by
  rw [feedGate, known, comp_of_filling filling low present]
  exact if_pos reached

/-- Below it the gate is coarse below the coarse cutoff, until it has once been fine. -/
theorem feedGate_feed (known : s.net? = some net) (below : net < c.fineCut.getD 0) {coarse : Bool}
    (side : coarse = decide (net < c.coarseCut.getD 0 ∧ c.fine = false)) :
    s.feedGate k = s.setGate k (if coarse then .coarse c.feeder else .fine c.feeder) (!coarse) net := by
  have judged : coarse = (decide (net < c.coarseCut.getD 0) && !c.fine) := by simp [side]
  rw [feedGate, known, comp_of_filling filling low present]
  dsimp only
  rw [if_neg (by omega), ← judged]
  cases coarse <;> rfl

omit low in
theorem setGate_eq (g : Gate) (isFine : Bool) (net : Int) : s.setGate k g isFine net = { s with filler := { s.filler with
    gate := g, flow := some (flowAt s.filler.gate.isOpen s.filler.flow net),
    fill := some { f with comps := f.comps.set (k - 1) { c with opened := true, fine := c.fine || isFine } } } } := by
  rw [setGate, modifyFill_eq (f := f) (by exact filling), Fill.modifyComp_eq present]
  rfl

omit low in
/-- The cutoffs are computed as FEED(k) is entered, and the gate is set. -/
theorem enterFeed_eq : s.enterFeed k = ({ s with filler := { s.filler with
    step := .feed k, gate := .closed, flow := none,
    fill := some { f with comps := f.comps.set (k - 1) { c with
      coarseCut := some (max 0 ((c.cumulative : Int) - s.books.fineBand c.feeder)),
      fineCut := some (max 0 ((c.cumulative : Int) - s.inflight c.feeder)) } } } } : State).feedGate k := by
  rw [enterFeed, modifyFill_eq (s := s.toStep (.feed k)) filling, Fill.modifyComp_eq present]
  rfl

end Component

/-! ### A reading update (R100, R105, R107, R111, R121) -/

theorem readingUpdate_invalid (unread : s.weigh.reading = none) :
    s.readingUpdate = { s with filler := { s.filler with gate := .closed } } := by
  rw [readingUpdate, unread]
  rfl

theorem readingUpdate_valid {r : Reading} (read : s.weigh.reading = some r) : s.readingUpdate = s.validUpdate r := by
  rw [readingUpdate, read]

theorem followNet_known (filling : s.filler.fill = some f) {net : Int} (known : s.net? = some net) :
    s.followNet = { s with filler := { s.filler with fill := some { f with lastNet := some net } } } := by
  rw [followNet, known]
  exact modifyFill_eq filling _

theorem followNet_unknown (unknown : s.net? = none) : s.followNet = s := by
  rw [followNet, unknown]

section Update
variable {r : Reading}

theorem validUpdate_hold (hold : s.followNet.pins.hold = true) : s.validUpdate r = s.followNet := if_pos hold

theorem validUpdate_rest (noTopup : s.followNet.filler.step ≠ .topup) (noFeed : ∀ k, s.followNet.filler.step ≠ .feed k) :
    s.validUpdate r = s.followNet := by
  unfold validUpdate
  dsimp only
  split
  · rfl
  · split
    · next k feeding => exact absurd feeding (noFeed k)
    · next feeding => exact absurd feeding noTopup
    all_goals rfl

variable (free : s.followNet.pins.hold = false)
include free

theorem validUpdate_feed {k : Nat} (feeding : s.followNet.filler.step = .feed k) : s.validUpdate r
    = if s.followNet.filler.gate.isOpen && r.isOver then s.followNet.overload else s.followNet.feedGate k := by
  rw [validUpdate, free, feeding]
  rfl

theorem validUpdate_topup (topping : s.followNet.filler.step = .topup) (filling : s.followNet.filler.fill = some f) :
    s.validUpdate r = if f.topupEnd.isSome then s.followNet
      else if s.followNet.filler.gate.isOpen && r.isOver then s.followNet.overload else s.followNet.topupGate := by
  rw [validUpdate, free, topping, filling]
  rfl

end Update

/-! ### The feeders' outputs (R101) -/

theorem coarseOut_iff (s : State) (k : Nat) :
    s.coarseOut k = true ↔ s.filler.gate = .coarse k ∧ s.pins.hold = false ∧ s.books.station ≠ .offline := by
  simp [coarseOut, and_assoc]

theorem fineOut_iff (s : State) (k : Nat) :
    s.fineOut k = true ↔ s.filler.gate = .fine k ∧ s.pins.hold = false ∧ s.books.station ≠ .offline := by
  simp [fineOut, and_assoc]

end State

/-! ### O44 -/

/-- OVER with a gate open, and its contrary, as the obligations state them. -/
theorem overloaded_iff (g : Gate) (r : Reading) : (g.isOpen && r.isOver) = true ↔ g ≠ .closed ∧ r.isOver = true := by
  rw [Bool.and_eq_true, Gate.isOpen_iff]

theorem not_overloaded_iff (g : Gate) (r : Reading) : (g.isOpen && r.isOver) = false ↔ g = .closed ∨ r.isOver = false := by
  rw [Bool.and_eq_false_iff, ← Bool.not_eq_true, Gate.isOpen_iff, not_not]

/-- Settles O44: FEED(k) and TOPUP at a reading update, the entry to FEED(k), and the outputs. -/
theorem feedsFollowTheNet : Obligations.FeedsFollowTheNet := by
  refine ⟨fun s k f c r tare net filling low present read tared hnet => ?_, fun s unread =>
    State.readingUpdate_invalid unread, fun s f r tare t filling read tared ht => ?_,
    fun s r read untared noTopup noFeed => ?_, fun s k => ⟨s.coarseOut_iff k, s.fineOut_iff k⟩⟩
  · have known : s.net? = some net := hnet ▸ State.net?_eq filling read tared
    refine ⟨fun reached => State.feedGate_settle filling low present known reached, fun below coarse u side hu => ?_,
      fun c' hc' => hc' ▸ State.enterFeed_eq filling present⟩
    have watch : flowAt s.filler.gate.isOpen s.filler.flow net = u := (flowAt_eq _ _ _).trans hu.symm
    rw [State.feedGate_feed filling low present known below side, State.setGate_eq filling present, watch]
  · have follows : s.followNet = t := ht ▸ State.followNet_known filling (State.net?_eq filling read tared)
    have hold : t.pins.hold = s.pins.hold := by rw [ht]
    have step : t.filler.step = s.filler.step := by rw [ht]
    have gate : t.filler.gate = s.filler.gate := by rw [ht]
    have fill : t.filler.fill = some { f with lastNet := some (r.weight - tare) } := by rw [ht]
    rw [← hold, ← step, ← gate, State.readingUpdate_valid read]
    clear ht hold step gate
    subst follows
    refine ⟨State.validUpdate_hold, fun k free feeding => ?_, fun free topping => ?_, State.validUpdate_rest⟩
    · rw [State.validUpdate_feed free feeding]
      exact ⟨fun opened heavy => if_pos ((overloaded_iff _ r).mpr ⟨opened, heavy⟩),
        fun calm => if_neg (by rw [(not_overloaded_iff _ r).mpr calm]; decide)⟩
    · rw [State.validUpdate_topup free topping fill]
      refine ⟨fun ended => if_pos (Option.isSome_iff_ne_none.mpr ended), fun running opened heavy => ?_,
        fun running calm => ?_⟩
      · rw [if_neg (by simp [running]), if_pos ((overloaded_iff _ r).mpr ⟨opened, heavy⟩)]
        rfl
      · rw [if_neg (by simp [running]), if_neg (by rw [(not_overloaded_iff _ r).mpr calm]; decide)]
  · have follows : s.followNet = s := State.followNet_unknown (State.net?_none untared)
    rw [State.readingUpdate_valid read, State.validUpdate_rest (by rwa [follows]) (by rwa [follows]), follows]

end Sys2Proof.Machine
end

section
/-! PROOFS. The settled readings of a fill: the tare, the components with their feeders' adaptation, CHECK, and the top-up
with its choice and its gate (R104, R108 to R111; O45). -/

namespace Sys2Proof.Machine

/-! ### The component of the top-up (R111) -/

namespace Books

variable {b : Books}

theorem chooseTopup_empty {k : Nat} {c : Component} {l : List Component} (best : Option (Nat × Nat))
    (empty : (b.bin c.bin).state = .empty) : b.chooseTopup k (c :: l) best = b.chooseTopup (k + 1) l best :=
  if_pos empty

/-- A component whose bin is not EMPTY is taken when its share exceeds that of the choice so far. -/
theorem chooseTopup_larger {k : Nat} {c : Component} {l : List Component} {best : Option (Nat × Nat)}
    (stocked : (b.bin c.bin).state ≠ .empty) (larger : ∀ x ∈ best, x.2 < c.share) :
    b.chooseTopup k (c :: l) best = b.chooseTopup (k + 1) l (some (k, c.share)) := by
  cases best with
  | none => exact if_neg stocked
  | some x => exact (if_neg stocked).trans (congrArg (b.chooseTopup (k + 1) l) (if_pos (larger x rfl)))

theorem chooseTopup_smaller {k j share : Nat} {c : Component} {l : List Component}
    (smaller : (b.bin c.bin).state = .empty ∨ c.share ≤ share) :
    b.chooseTopup k (c :: l) (some (j, share)) = b.chooseTopup (k + 1) l (some (j, share)) := by
  by_cases empty : (b.bin c.bin).state = .empty
  · exact chooseTopup_empty _ empty
  · have kept : ¬ share < c.share := by
      have := smaller.resolve_left empty
      omega
    exact (if_neg empty).trans (congrArg (b.chooseTopup (k + 1) l) (if_neg kept))

theorem chooseTopup_all_empty {k : Nat} {l : List Component} (empty : ∀ c ∈ l, (b.bin c.bin).state = .empty) :
    b.chooseTopup k l none = none := by
  induction l generalizing k with
  | nil => rfl
  | cons c l ih =>
    rw [chooseTopup_empty none (empty c List.mem_cons_self)]
    exact ih fun x hx => empty x (List.mem_cons_of_mem c hx)

/-- A choice stands against components of no larger share. -/
theorem chooseTopup_stands {k j share : Nat} {l : List Component}
    (smaller : ∀ x ∈ l, (b.bin x.bin).state = .empty ∨ x.share ≤ share) :
    b.chooseTopup k l (some (j, share)) = some j := by
  induction l generalizing k with
  | nil => rfl
  | cons c l ih =>
    rw [chooseTopup_smaller (smaller c List.mem_cons_self)]
    exact ih fun x hx => smaller x (List.mem_cons_of_mem c hx)

/-- The first component of the largest share is chosen. -/
theorem chooseTopup_largest {k : Nat} {best : Option (Nat × Nat)} {pre post : List Component} {c : Component}
    (stocked : (b.bin c.bin).state ≠ .empty) (larger : ∀ x ∈ best, x.2 < c.share)
    (before : ∀ x ∈ pre, (b.bin x.bin).state = .empty ∨ x.share < c.share)
    (after : ∀ x ∈ post, (b.bin x.bin).state = .empty ∨ x.share ≤ c.share) :
    b.chooseTopup k (pre ++ c :: post) best = some (k + pre.length) := by
  induction pre generalizing k best with
  | nil => rw [List.nil_append, chooseTopup_larger stocked larger, chooseTopup_stands after]; rfl
  | cons x pre ih =>
    have rest : ∀ y ∈ pre, (b.bin y.bin).state = .empty ∨ y.share < c.share :=
      fun y hy => before y (List.mem_cons_of_mem x hy)
    have next : k + (x :: pre).length = k + 1 + pre.length := by rw [List.length_cons]; omega
    rw [List.cons_append, next]
    by_cases empty : (b.bin x.bin).state = .empty
    · rw [chooseTopup_empty _ empty]
      exact ih larger rest
    have below : x.share < c.share := (before x List.mem_cons_self).resolve_left empty
    match best, larger with
    | none, _ =>
      rw [chooseTopup_larger empty (by simp)]
      exact ih (by simpa using below) rest
    | some (j, share), larger =>
      by_cases more : share < x.share
      · rw [chooseTopup_larger empty (by simpa using more)]
        exact ih (by simpa using below) rest
      · rw [chooseTopup_smaller (.inr (by omega))]
        exact ih larger rest

end Books

namespace State

variable {s : State} {f : Fill}

/-! ### The tare (R104) -/

theorem fillSettled_tare (step : s.filler.step = .tare) (r : Reading) : s.fillSettled r = s.tareSettled r := by
  rw [fillSettled, step]

section Tare
variable (filling : s.filler.fill = some f) {r : Reading}
include filling

theorem tareSettled_reject (out : r.isOver = true ∨ r.weight < f.tareMin ∨ f.tareMax < r.weight) :
    s.tareSettled r = s.enterReject .tareRange := by
  rw [tareSettled, filling]
  exact if_pos (by simpa [or_assoc] using out)

theorem tareSettled_pass (light : r.isOver = false) (above : f.tareMin ≤ r.weight) (below : r.weight ≤ f.tareMax) :
    s.tareSettled r = ({ s with filler := { s.filler with
      fill := some { f with tare := some r.weight, lastNet := some 0 } } } : State).enterFeed 1 := by
  rw [tareSettled, filling]
  dsimp only
  rw [if_neg (by simp [light, above, below]), modifyFill_eq filling]

end Tare

/-! ### SETTLE(k) (R108, R109) -/

theorem adapt_unjudged {c : CompState} (n : Nat) (net : Int) (unjudged : c.opened = false ∨ c.short = true) :
    s.adapt n c net = s := if_neg (by rcases unjudged with h | h <;> simp [h])

section Judged
variable {c : CompState} (n : Nat) {net e : Int} (opened : c.opened = true) (full : c.short = false)
  (error : e = net - c.cumulative)
include opened full error

/-- An error within 200 is learnt by the feeder's in-flight value. -/
theorem adapt_learn (low : -200 ≤ e) (high : e ≤ 200) : s.adapt n c net = { s with filler := { s.filler with
    inflight := s.filler.inflight.setIfInBounds (c.feeder - 1) (adapted (s.inflight c.feeder) e) } } := by
  subst error
  simp [adapt, opened, full, low, high, setFiller]

theorem adapt_wild (wild : e < -200 ∨ 200 < e) :
    s.adapt n c net = { s with books := s.books.raiseNotice .wildFill (some n) none (some c.feeder) } := by
  subst error
  have judged : (decide (-200 ≤ net - c.cumulative) && decide (net - c.cumulative ≤ 200)) = false := by
    rw [← Bool.not_eq_true, Bool.and_eq_true, decide_eq_true_eq, decide_eq_true_eq]
    omega
  simp only [adapt, opened, full, judged]
  rfl

end Judged

theorem fillSettled_settle {k : Nat} (step : s.filler.step = .settle k) (r : Reading) :
    s.fillSettled r = s.componentSettled k r := by
  rw [fillSettled, step]

/-- The component's entry as its settle completes at `net`, and the feeder's adaptation. -/
theorem componentSettled_eq (filling : s.filler.fill = some f) {k : Nat} (low : 1 ≤ k) {c : CompState}
    (present : f.comps[k - 1]? = some c) {tare : Int} (tared : f.tare = some tare) (r : Reading) {t : State}
    (settled : t = { s with filler := { s.filler with fill := some { f with comps := f.comps.set (k - 1) { c with
      settled := some (r.weight - tare), actual := r.weight - tare - f.netBeforeComp k } } } }) :
    s.componentSettled k r = if k < f.comps.length
      then (t.adapt f.invoice c (r.weight - tare)).enterFeed (k + 1)
      else (t.adapt f.invoice c (r.weight - tare)).check (r.weight - tare) := by
  rw [componentSettled, filling]
  dsimp only
  rw [f.comp?_eq low, present, tared, modifyFill_eq filling, Fill.modifyComp_eq present, settled]
  rfl

/-! ### The top-up settle (R111) -/

theorem fillSettled_topup (step : s.filler.step = .topup) (r : Reading) : s.fillSettled r = s.topupSettled r := by
  rw [fillSettled, step]

/-- The gain joins the actual of the component topped up. -/
theorem topupSettled_eq (filling : s.filler.fill = some f) {k : Nat} (chosen : f.topupComp = some k) {c : CompState}
    (present : f.comps[k - 1]? = some c) {tare before : Int} (tared : f.tare = some tare)
    (began : f.netBefore = some before) (r : Reading) :
    s.topupSettled r = ({ s with filler := { s.filler with fill := some { f with comps := f.comps.set (k - 1) { c with
      actual := c.actual + (r.weight - tare - before) } } } } : State).check (r.weight - tare) := by
  rw [topupSettled, filling]
  dsimp only
  rw [modifyFill_eq filling]
  simp only [chosen, tared, began, Option.getD_some, Fill.modifyComp_eq present]

/-! ### CHECK (R110) -/

theorem check_eq (filling : s.filler.fill = some f) {net : Int} {t : State}
    (weighed : t = (s.toStep .check).modifyFill (fun f => { f with net := some net })) : s.check net
    = if (f.target : Int) + f.tolerance < net then t.enterReject .overweight
      else if (f.target : Int) - f.tolerance ≤ net then t.accept
      else if f.topupDone then t.enterReject .underweight
      else t.enterTopup net := by
  have fill : t.filler.fill = some { f with net := some net } := by
    rw [weighed, modifyFill_filler, toStep_filler, filling]
    rfl
  unfold check
  dsimp only
  rw [← weighed, fill]

/-! ### The entry to TOPUP and its gate (R111) -/

/-- TOPUP is entered with the choice made, or the chest is UNDER. -/
theorem enterTopup_eq (filling : s.filler.fill = some f) (net : Int) {choice : Option Nat}
    (chosen : choice = s.books.chooseTopup 1 f.recipe none) {t : State} (begun : t = { s with filler := { s.filler with
      step := .topup, gate := .closed, flow := none,
      fill := some { f with topupDone := true, netBefore := some net, topupComp := choice, topupEnd := none } } }) :
    s.enterTopup net = if choice.isSome then t.topupGate else t.enterReject .underweight := by
  rw [enterTopup, modifyFill_eq (s := s.toStep .topup) filling, ← chosen, begun]
  rfl

/-- The top-up ends: its gate closes, and a settle is asked for. -/
theorem endTopup_eq (filling : s.filler.fill = some f) (how : TopupEnd) :
    s.endTopup how = ({ s with filler := { s.filler with
      step := .topup, gate := .closed, flow := none,
      fill := some { f with topupEnd := some how } } } : State).askSettle .fill := by
  rw [endTopup, modifyFill_eq (s := s.toStep .topup) filling]
  rfl

theorem topupGate_unknown (unknown : s.net? = none) : s.topupGate = s := by
  rw [topupGate, unknown]

theorem topupGate_eq (filling : s.filler.fill = some f) {k : Nat} (chosen : f.topupComp = some k) (low : 1 ≤ k)
    {c : CompState} (present : f.comps[k - 1]? = some c) {net : Int} (known : s.net? = some net) :
    s.topupGate = if (f.target : Int) - s.inflight c.feeder ≤ net then s.endTopup .cutoff
    else s.setGate k (.fine c.feeder) true net := by
  rw [topupGate, known, filling]
  dsimp only
  rw [chosen, Option.bind_some, f.comp?_eq low, present, Option.map_some]

end State

/-! ### O45 -/

/-- Settles O45: each settled reading by the step that waits for it, and the top-up's choice, entry and gate. -/
theorem settledReadingsAreJudged : Obligations.SettledReadingsAreJudged := by
  refine ⟨fun s f r filling step => ?_, fun s f r k c tare net e t filling step low present tared hnet he ht t' adapted => ?_,
    fun s f r k c tare net before filling step chosen low present tared began hnet => ?_, fun s f net t filling ht => ?_,
    fun b l => ⟨Books.chooseTopup_all_empty, fun pre post c hl stocked before after => ?_⟩,
    fun s f net choice t filling chosen begun => ?_, fun s f k c r tare net filling chosen low present tared hnet =>
      ⟨fun unread => ?_, fun read reached => ?_, fun read below u hu => ?_⟩⟩
  · rw [State.fillSettled_tare step]
    exact ⟨State.tareSettled_reject filling, State.tareSettled_pass filling⟩
  · rw [← f.netBeforeComp_eq low] at ht
    subst hnet
    have learnt : t.adapt f.invoice c (r.weight - tare) = t' := by
      rcases adapted with ⟨unjudged, rfl⟩ | ⟨opened, full, low, high, rfl⟩ | ⟨opened, full, wild, rfl⟩
      · exact State.adapt_unjudged _ _ unjudged
      · rw [State.adapt_learn f.invoice opened full he low high, ht]
        rfl
      · rw [State.adapt_wild f.invoice opened full he wild, ht]
    rw [State.fillSettled_settle step, State.componentSettled_eq filling low present tared r ht, learnt]
  · rw [State.fillSettled_topup step, State.topupSettled_eq filling chosen present tared began, hnet]
  · rw [State.check_eq filling ht]
    refine ⟨fun heavy => if_pos heavy, fun above below => ?_, fun light done => ?_, fun light fresh => ?_⟩
    · exact (if_neg (by omega)).trans (if_pos above)
    · exact (if_neg (by omega)).trans ((if_neg (by omega)).trans (if_pos done))
    · exact (if_neg (by omega)).trans ((if_neg (by omega)).trans (if_neg (by rw [fresh]; decide)))
  · rw [hl, Books.chooseTopup_largest stocked (by simp) before after, Nat.add_comm]
  · rw [State.enterTopup_eq filling net chosen begun]
    exact ⟨fun absent => by rw [absent]; rfl, fun present => if_pos (Option.isSome_iff_ne_none.mpr present)⟩
  · exact State.topupGate_unknown (by rw [State.net?, unread])
  · have known : s.net? = some net := hnet ▸ State.net?_eq filling read tared
    rw [State.topupGate_eq filling chosen low present known, if_pos reached, State.endTopup_eq filling]
  · have known : s.net? = some net := hnet ▸ State.net?_eq filling read tared
    have watch : flowAt s.filler.gate.isOpen s.filler.flow net = u := (flowAt_eq _ _ _).trans hu.symm
    rw [State.topupGate_eq filling chosen low present known, if_neg (by omega), State.setGate_eq filling present, watch,
      Bool.or_true]

end Sys2Proof.Machine
end

section
/-! PROOFS. ACCEPT: the orphan, SURPLUS, the lowest serial; the draws and OFF_BLEND; the start of a mark (R113 to R115, R126
to R129; O46). -/

namespace Sys2Proof.Machine

/-! ### Draws and shares (R114) -/

theorem roundHalfUp_ten (n : Nat) : roundHalfUp n 10 = (n + 5) / 10 := by
  unfold roundHalfUp
  omega

theorem shareOf_eq (actual net : Int) :
    shareOf actual net = (2000 * (max 0 actual).toNat + net.toNat) / (2 * net.toNat) := by
  rw [shareOf, roundHalfUp, ← Nat.mul_assoc, Nat.mul_comm 2 (max 0 actual).toNat, Nat.mul_assoc,
    Nat.mul_comm (max 0 actual).toNat]

theorem Fill.draws_length (f : Fill) : f.draws.length = min f.recipe.length f.comps.length := List.length_zipWith

theorem Fill.draws_getElem? {f : Fill} {i : Nat} {c : Component} {p : CompState} (hc : f.recipe[i]? = some c)
    (hp : f.comps[i]? = some p) : f.draws[i]? = some ⟨c.bin, ((max 0 p.actual).toNat + 5) / 10⟩ := by
  rw [Fill.draws, List.getElem?_zipWith, hc, hp, ← roundHalfUp_ten]
  rfl

/-- OFF_BLEND is judged component by component. -/
theorem Fill.offBlend_iff (f : Fill) (net : Int) : f.offBlend net = true ↔ ∃ (i : Nat) (c : Component) (p : CompState),
    f.recipe[i]? = some c ∧ f.comps[i]? = some p
      ∧ (f.shareTolerance < shareOf p.actual net - c.share ∨ f.shareTolerance < c.share - shareOf p.actual net) := by
  simp only [Fill.offBlend, List.any_eq_true, id, exists_eq_right, List.mem_iff_getElem?,
    List.getElem?_zipWith_eq_some, decide_eq_true_eq, lt_max_iff]

namespace State

variable {s : State} {f : Fill}

/-! ### The record that the chest was started for -/

theorem recordOf?_held (held : f.freed = false) (b : Books) : b.recordOf? f = b.invoice? f.invoice := by
  rw [Books.recordOf?, Fill.held, held]
  rfl

theorem recordOf?_gone {b : Books} (gone : b.invoice? f.invoice = none ∨ f.freed = true) : b.recordOf? f = none := by
  rcases gone with absent | freed
  · unfold Books.recordOf? Fill.held
    split
    · rfl
    · exact absent
  · rw [Books.recordOf?, Fill.held, if_pos freed]
    rfl

/-! ### ACCEPT (R113, R115) -/

section Accept
variable (filling : s.filler.fill = some f)
include filling

theorem accept_gone (gone : s.books.recordOf? f = none) : s.accept = (s.toStep .accept).orphan f := by
  unfold accept
  dsimp only
  rw [toStep_filler, filling]
  dsimp only
  rw [toStep_books, gone]

variable {r : Invoice} (held : s.books.recordOf? f = some r)
include held

theorem accept_closed (closed : r.state = .closed) : s.accept = (s.toStep .accept).orphan f := by
  unfold accept
  dsimp only
  rw [toStep_filler, filling]
  dsimp only
  rw [toStep_books, held]
  exact if_pos closed

variable (opened : r.state ≠ .closed)
include opened

theorem accept_surplus (used : r.free = []) : s.accept = (s.toStep .accept).enterReject .surplus := by
  unfold accept
  dsimp only
  rw [toStep_filler, filling]
  dsimp only
  rw [toStep_books, held]
  dsimp only
  rw [if_neg opened, used]

theorem accept_serial {x : Nat} {l : List Nat} (free : r.free = x :: l) :
    s.accept = ((s.toStep .accept).acceptAs f x).afterAccept f.invoice x := by
  unfold accept
  dsimp only
  rw [toStep_filler, filling]
  dsimp only
  rw [toStep_books, held]
  dsimp only
  rw [if_neg opened, free]

end Accept

/-- The own record of the fill in its plain fields (R113, R114). -/
theorem ownRecord_eq {tare net : Int} (tared : f.tare = some tare) (weighed : f.net = some net) (key : ChestKey)
    (mark : MarkStatus) : s.ownRecord f key mark = {
      invoice := f.invoice, key := key, station := s.books.straps.station, origin := .own,
      gross := roundHalfUp (tare + net).toNat 10, tare := roundHalfUp tare.toNat 10,
      net := roundHalfUp (tare + net).toNat 10 - roundHalfUp tare.toNat 10, sample := none,
      offBlend := f.offBlend net, mark := mark, draws := f.draws, conflict := none } := by
  rw [ownRecord, tared, weighed]
  rfl

theorem orphan_held {r : Invoice} (held : s.books.recordOf? f = some r) : s.orphan f = (s.setBooks
    ((((s.books.fillOrphan (s.ownRecord f (.orphan f.reservation) .none)).raiseFault .chestOrphan).raiseNotice
      .orphanPacked (some f.invoice) none (some f.reservation)).queueFrame none
        (.chest f.invoice ⟨0, 0, 0, 0, 0, f.draws⟩))).enterClear := by
  rw [orphan, held]
  rfl

theorem orphan_gone (gone : s.books.recordOf? f = none) : s.orphan f = (s.setBooks
    (((s.books.dropReservation.raiseFault .chestOrphan).raiseNotice
      .orphanPacked (some f.invoice) none (some f.reservation)).queueFrame none
        (.chest f.invoice ⟨0, 0, 0, 0, 0, f.draws⟩))).enterClear := by
  rw [orphan, gone]
  rfl

theorem afterAccept_head (n x : Nat) (head : s.marker.head ≠ none) :
    s.afterAccept n x = (s.toStep .mark).startMark .fill n x := if_pos (Option.isSome_iff_ne_none.mpr head)

theorem afterAccept_bare (n x : Nat) (bare : s.marker.head = none) :
    s.afterAccept n x = (s.onBooks (·.queueFrame none (.mark n x 4))).enterClear := if_neg (by simp [bare])

/-! ### The start of a mark (R126, R128, R129) -/

theorem startMark_eq (who : MarkFor) {n k : Nat} {r : Invoice} {c : Chest} (found : s.books.invoice? n = some r)
    (chest : s.books.chest? n k = some c) : s.startMark who n k = s.setMarker (s.marker.freePath.startShift
      (newJob who n k (line1Of r.mark r.grade) (line2Of n k c.net c.gross))) := by
  rw [startMark, found, chest]

end State

/-- The bits of a SHIFT, with the head's two settings written out. -/
theorem Head.sends_eq (h : Head) (fire : BitVec 32) : h.sends fire = (List.range 32).map (fun i =>
    (if h.activeLow then ~~~fire else fire).getLsbD (if h.nozzle32First then 31 - i else i)) := by
  unfold Head.sends
  refine List.map_congr_left fun i _ => ?_
  have place : h.nozzleAt (i + 1) - 1 = if h.nozzle32First then 31 - i else i := by
    unfold Head.nozzleAt
    split <;> omega
  rw [place, Head.levels]

theorem line1Of_length_pos (mark grade : List Byte) : 1 ≤ (line1Of mark grade).length := by
  simp only [line1Of, List.length_take, List.length_append, List.length_singleton]
  omega

/-- The twelve columns after the last glyph, where the gap of two is dropped from the mark and kept in the positions. -/
theorem newJob_positions (who : MarkFor) (n k : Nat) (mark grade line2 : List Byte) :
    (newJob who n k (line1Of mark grade) line2).positions
      = 12 * max (line1Of mark grade).length line2.length + 10 := by
  have := line1Of_length_pos mark grade
  change 12 * max (line1Of mark grade).length line2.length - 2 + 12 = _
  omega

/-! ### O46 -/

/-- Settles O46: ACCEPT by the record and its serials, the start of a mark, the draws, and OFF_BLEND. -/
theorem acceptGivesTheLowestSerial : Obligations.AcceptGivesTheLowestSerial := by
  refine ⟨fun s f tare net c t filling tared weighed ht hc => ?_, fun s who n k h r c head found chest => ?_,
    fun f => ⟨f.draws_length, fun i c p hc hp => Fill.draws_getElem? hc hp⟩, fun f net _ => ?_, fun b c d hd => ?_⟩
  · have station : t.books = s.books := by rw [ht]; rfl
    refine ⟨fun b orphaned => ?_, fun r found held opened => ⟨fun used => ?_, fun x l b free hb u hu => ?_⟩⟩
    · have record : t.ownRecord f (.orphan f.reservation) .none = { c with key := .orphan f.reservation, mark := .none } := by
        rw [State.ownRecord_eq tared weighed, station, hc]
      rcases orphaned with ⟨⟨r, found, closed⟩, held, rfl⟩ | ⟨gone, rfl⟩
      · have stands : s.books.recordOf? f = some r := (State.recordOf?_held held _).trans found
        rw [State.accept_closed filling stands closed, ← ht, State.orphan_held (station ▸ stands), record, station]
      · have absent : s.books.recordOf? f = none := State.recordOf?_gone gone
        rw [State.accept_gone filling absent, ← ht, State.orphan_gone (station ▸ absent), station]
    · rw [State.accept_surplus filling ((State.recordOf?_held held _).trans found) opened used, ht]
    · have mark : (if t.marker.head.isSome then MarkStatus.pending else .none) = c.mark := by
        rw [ht, hc, State.toStep_marker]
        cases s.marker.head <;> rfl
      have record : t.ownRecord f (.packed x) (if t.marker.head.isSome then .pending else .none)
          = { c with key := .packed x } := by
        rw [mark, State.ownRecord_eq tared weighed, station, hc]
      have accepted : t.acceptAs f x = u := by
        rw [State.acceptAs, record, hu, hb, ht, State.modifyFill_eq (f := f) (by exact filling)]
        rfl
      have same : u.marker = s.marker := by rw [hu, ht]; rfl
      have books : u.books = b := by rw [hu]
      rw [State.accept_serial filling ((State.recordOf?_held held _).trans found) opened free, ← ht, accepted]
      refine ⟨fun head => State.afterAccept_head _ _ (same ▸ head), fun bare => ?_⟩
      rw [State.afterAccept_bare _ _ (by rw [same, bare]), ← books]
      rfl
  · refine ⟨newJob who n k (line1Of r.mark r.grade) (line2Of n k c.net c.gross), Config.headBits s.marker.unknown, ?_, ?_⟩
    · rw [State.startMark_eq who found chest, ← h.sends_eq]
      simp only [State.setMarker, Marker.startShift, Marker.freePath, head]
      rfl
    · exact congrArg (fun m => { newJob who n k (line1Of r.mark r.grade) (line2Of n k c.net c.gross) with positions := m })
        (newJob_positions who n k r.mark r.grade _)
  · simp only [Fill.offBlend_iff, shareOf_eq, exists_and_left, exists_eq_left]
  · rw [hd]
    rfl

end Sys2Proof.Machine
end

section
/-! PROOFS. No flow in FEED(k) and TOPUP, and the reject pulse (R78, R101, R106, R111, R117; O47). -/

namespace Sys2Proof.Machine

namespace State

variable {s : State} {f : Fill}

/-! ### No flow (R78, R106, R111) -/

theorem noFlowIn_eq {w : FlowWatch} (watched : s.filler.flow = some w) (opened : s.filler.gate ≠ .closed) :
    s.noFlowIn = some (1500 - w.timer) := by
  rw [noFlowIn, watched]
  exact if_pos ((Gate.isOpen_iff _).mpr opened)

theorem exec_noFlow {d : Nat} (coming : s.noFlowIn = some d) : exec .noFlow s = .next (s.elapse d).findNoFlow :=
  congrArg Host.Outcome.next (s.atMoment_some findNoFlow coming)

section Short
variable (filling : s.filler.fill = some f) {k : Nat} {c : CompState} (present : f.comps[k - 1]? = some c)
  {rc : Component} (recipe : f.recipe[k - 1]? = some rc)
include filling present recipe

/-- The component short of flow is marked in its place, and its bin told of. -/
theorem markShort_eq : s.markShort k = { s with
    books := s.books.noFlowBin rc.bin,
    filler := { s.filler with fill := some { f with comps := f.comps.set (k - 1) { c with short := true } } } } := by
  unfold markShort
  dsimp only
  rw [modifyFill_eq filling, Fill.modifyComp_eq present]
  dsimp only [Option.bind_some]
  rw [recipe]
  rfl

/-- FEED(k) goes to its settle. -/
theorem findNoFlow_feed (feeding : s.filler.step = .feed k) : s.findNoFlow = ({ s with
    books := s.books.noFlowBin rc.bin,
    filler := { s.filler with
      step := .settle k, gate := .closed, flow := none,
      fill := some { f with comps := f.comps.set (k - 1) { c with short := true } } } } : State).askSettle .fill := by
  rw [findNoFlow, feeding]
  dsimp only
  rw [markShort_eq (s := s.closeGate) filling present recipe]
  rfl

/-- TOPUP ends without flow, and waits for its own settle. -/
theorem findNoFlow_topup (topping : s.filler.step = .topup) (chosen : f.topupComp = some k) : s.findNoFlow = ({ s with
    books := s.books.noFlowBin rc.bin,
    filler := { s.filler with
      step := .topup, gate := .closed, flow := none,
      fill := some { f with comps := f.comps.set (k - 1) { c with short := true }, topupEnd := some .noFlow } } } :
        State).askSettle .fill := by
  have fed : s.filler.fill.bind (·.topupComp) = some k := by rw [filling]; exact chosen
  rw [findNoFlow, topping]
  dsimp only
  rw [fed]
  dsimp only
  rw [markShort_eq (s := s.closeGate) filling present recipe, endTopup_eq rfl]
  rfl

end Short

/-! ### The reject pulse (R101, R117) -/

theorem rejectEndIn_eq (rejecting : s.filler.step = .reject) (free : s.pins.hold = false) :
    s.rejectEndIn = some (200 - s.filler.rejectTimer) := if_pos (by simp [rejecting, free])

theorem exec_rejectPulseEnd {d : Nat} (coming : s.rejectEndIn = some d) :
    exec .rejectPulseEnd s = .next (s.elapse d).enterClear :=
  congrArg Host.Outcome.next (s.atMoment_some enterClear coming)

theorem rejectOut_iff (s : State) : s.rejectOut = true ↔ s.filler.step = .reject ∧ s.pins.hold = false
    ∧ s.books.station ≠ .offline ∧ s.inReset = false := by
  simp [rejectOut, and_assoc]

end State

/-! ### O47 -/

/-- Settles O47: no flow found by the step, the end of the reject pulse, and REJECT. -/
theorem noFlowAndTheRejectPulse : Obligations.NoFlowAndTheRejectPulse := by
  refine ⟨fun s w k d f c rc b t watched opened filling low present recipe hd hb ht => ?_, fun s rejecting free => ?_,
    State.rejectOut_iff⟩
  · have books : (s.elapse d).books.noFlowBin rc.bin
        = b.queueFrame none (.bin 0 rc.bin 2 ((b.bin rc.bin).batch.getD 0) 0) := by rw [hb]; rfl
    have fill : (s.elapse d).filler.fill = some f := filling
    rw [State.exec_noFlow (State.noFlowIn_eq watched opened), ← hd]
    refine ⟨fun feeding => ?_, fun topping chosen => ?_⟩
    · rw [State.findNoFlow_feed fill present recipe feeding, books, ht]
      rfl
    · rw [State.findNoFlow_topup fill present recipe topping chosen, books, ht]
      rfl
  · exact State.exec_rejectPulseEnd (State.rejectEndIn_eq rejecting free)

end Sys2Proof.Machine
end

section
/-! PROOFS. The CHEST and HOLD inputs by the step of the lane, and OUTFEED RUN (R98, R101, R103, R119 to R121, R134; O48). -/

namespace Sys2Proof.Machine

namespace State

variable {s : State}

/-! ### The edges of CHEST by the step (R103, R119, R120) -/

theorem chestRises_armed (armed : s.filler.step = .armed) : s.chestRises = (s.toStep .tare).askSettle .fill := by
  rw [chestRises, armed]
  rfl

theorem capturing_iff (s : State) : s.weigh.request.any (fun q => q.who = .capture) = true
    ↔ ∃ q, s.weigh.request = some q ∧ q.who = .capture := by
  simp [Option.any_eq_true]

theorem chestRises_capture (clearing : s.filler.step = .clear)
    (capture : ∃ q, s.weigh.request = some q ∧ q.who = .capture) : s.chestRises = s.withdrawRequest.goIdle := by
  rw [chestRises, clearing]
  exact if_pos (s.capturing_iff.mpr capture)

theorem chestRises_clear (clearing : s.filler.step = .clear)
    (others : ∀ q, s.weigh.request = some q → q.who ≠ .capture) : s.chestRises = s := by
  rw [chestRises, clearing]
  exact if_neg fun capture => by
    obtain ⟨q, asked, who⟩ := s.capturing_iff.mp capture
    exact others q asked who

theorem chestRises_rest (unarmed : s.filler.step ≠ .armed) (busy : s.filler.step ≠ .clear) : s.chestRises = s := by
  unfold chestRises
  split
  · next armed => exact absurd armed unarmed
  · next clearing => exact absurd clearing busy
  all_goals rfl

theorem chestFalls_clear (clearing : s.filler.step = .clear) : s.chestFalls = s.enterClear := by
  rw [chestFalls, clearing]

theorem chestFalls_filling (filling : s.filler.step = .tare ∨ s.filler.step = .topup
    ∨ ∃ k, s.filler.step = .feed k ∨ s.filler.step = .settle k) : s.chestFalls = s.cutFill.enterReject .chestLost := by
  rcases filling with step | step | ⟨k, step | step⟩ <;> rw [chestFalls, step]

theorem chestFalls_rest (resting : s.filler.step ∈ ([.idle, .armed, .check, .accept, .reject, .mark] : List FillStep)) :
    s.chestFalls = s := by
  simp only [List.mem_cons, List.not_mem_nil, or_false] at resting
  rcases resting with step | step | step | step | step | step <;> rw [chestFalls, step]

/-! ### CHEST_EDGE (R98, R103) -/

theorem exec_chestEdge {level : Bool} (changed : s.pins.chest ≠ level) :
    exec (.chestEdge level) s = .next (s.chestChanges level) :=
  congrArg Host.Outcome.next (if_neg changed)

/-- With no ZERO SCALE waiting nothing is withdrawn. -/
theorem endZeroing_of_calm (calm : s.weigh.request = none ∨ ∃ q, s.weigh.request = some q ∧ q.who ≠ .zeroScale) :
    s.endZeroing = s := by
  refine if_neg ?_
  rcases calm with absent | ⟨q, asked, other⟩
  · simp [zeroing, absent]
  · simp [zeroing, asked, other]

theorem endZeroing_of_zeroing {q : SettleRequest} (asked : s.weigh.request = some q) (zero : q.who = .zeroScale)
    {code : Byte} (command : s.port.command = some code) : s.endZeroing = { s with
      weigh := { s.weigh with request := none, timer := 0 },
      port := { s.port with reply := some ⟨code, .busy, []⟩ } } := by
  rw [endZeroing, if_pos (by simp [zeroing, asked, zero]), reply_some (s := s.withdrawRequest) command]
  rfl

section Calm
variable (calm : s.weigh.request = none ∨ ∃ q, s.weigh.request = some q ∧ q.who ≠ .zeroScale) (level : Bool)
include calm

theorem chestChanges_eq : s.chestChanges level = (let t : State := { s with pins := { s.pins with chest := level } }
    if s.pins.hold || s.inReset then t else t.chestEdgeAt level) := by
  have kept : (s.setPins { s.pins with chest := level }).endZeroing = s.setPins { s.pins with chest := level } :=
    endZeroing_of_calm calm
  unfold chestChanges
  dsimp only
  rw [kept, ite_self]
  rfl

theorem chestChanges_hold (hold : s.pins.hold = true) :
    s.chestChanges level = { s with pins := { s.pins with chest := level } } := by
  rw [chestChanges_eq calm]
  exact if_pos (by rw [hold, Bool.true_or])

theorem chestChanges_free (free : s.pins.hold = false) (ready : s.inReset = false) :
    s.chestChanges level = ({ s with pins := { s.pins with chest := level } } : State).chestEdgeAt level := by
  rw [chestChanges_eq calm]
  exact if_neg (by rw [free, ready]; decide)

end Calm

theorem chestEdgeAt_rise (s : State) :
    s.chestEdgeAt true = ({ s with filler := { s.filler with remembered := true } } : State).chestRises := rfl

theorem chestEdgeAt_fall (s : State) :
    s.chestEdgeAt false = ({ s with filler := { s.filler with remembered := false } } : State).chestFalls := rfl

/-- A rise ends a waiting ZERO SCALE with BUSY, HOLD or not; without HOLD the level is remembered. -/
theorem chestChanges_zeroing {q : SettleRequest} {code : Byte} (ready : s.inReset = false)
    (asked : s.weigh.request = some q) (zero : q.who = .zeroScale) (command : s.port.command = some code)
    (idle : s.filler.step = .idle) : s.chestChanges true = { s with
      pins := { s.pins with chest := true },
      weigh := { s.weigh with request := none, timer := 0 },
      filler := { s.filler with remembered := if s.pins.hold then s.filler.remembered else true },
      port := { s.port with reply := some ⟨code, .busy, []⟩ } } := by
  have ended : (s.setPins { s.pins with chest := true }).endZeroing = { s with
      pins := { s.pins with chest := true },
      weigh := { s.weigh with request := none, timer := 0 },
      port := { s.port with reply := some ⟨code, .busy, []⟩ } } :=
    endZeroing_of_zeroing (s := s.setPins { s.pins with chest := true }) asked zero command
  have unarmed : s.filler.step ≠ .armed := by rw [idle]; decide
  have busy : s.filler.step ≠ .clear := by rw [idle]; decide
  unfold chestChanges
  dsimp only
  rw [if_pos rfl, ended]
  by_cases hold : s.pins.hold = true
  · rw [if_pos (by simp [hold]), if_pos hold]
  · rw [if_neg (by simp [hold, ready]), if_neg hold, chestEdgeAt_rise]
    exact chestRises_rest (by exact unarmed) (by exact busy)

/-! ### HOLD (R121, R134) -/

theorem exec_holdActive (free : s.pins.hold = false) : exec .holdActive s = .next s.holdBegins :=
  congrArg Host.Outcome.next (if_neg (by simp [free]))

theorem exec_holdEnd (hold : s.pins.hold = true) : exec .holdEnd s = .next s.holdEnds :=
  congrArg Host.Outcome.next (if_pos hold)

end State

theorem Marker.held_eq (m : Marker) : m.held = if m.firing = none then m else m.clearLatch := by
  unfold Marker.held
  cases m.firing <;> rfl

namespace State

variable {s : State}

theorem holdBegins_eq (s : State) : s.holdBegins = { s with
    pins := { s.pins with hold := true },
    weigh := (if ∃ q, s.weigh.request = some q ∧ q.who ≠ .zeroScale then { s.weigh with request := none, timer := 0 }
      else s.weigh),
    filler := { s.filler with gate := .closed, flow := none, rejectTimer := 0 },
    marker := if s.marker.firing = none then s.marker else s.marker.clearLatch } := by
  rw [holdBegins, withdrawLane_eq, Marker.held_eq]
  rfl

theorem holdEnds_eq (ready : s.inReset = false) : s.holdEnds
    = (if s.pins.chest = s.filler.remembered then { s with pins := { s.pins with hold := false } }
       else ({ s with pins := { s.pins with hold := false } } : State).chestEdgeAt s.pins.chest).restart := by
  unfold holdEnds
  exact if_neg (by simp [ready])

/-! ### The restart of a step (R121) -/

theorem restart_settling (waiting : s.filler.step = .tare ∨ ∃ k, s.filler.step = .settle k) :
    s.restart = s.askSettle .fill := by
  rcases waiting with step | ⟨k, step⟩ <;> rw [restart, step]

theorem restart_feed {k : Nat} (feeding : s.filler.step = .feed k) :
    s.restart = ({ s with filler := { s.filler with flow := none } } : State).feedGate k := by
  rw [restart, feeding]

section Topup
variable (topping : s.filler.step = .topup) {f : Fill} (filling : s.filler.fill = some f)
include topping filling

theorem restart_topup_cutoff (ended : f.topupEnd = some .cutoff) : s.restart = s.askSettle .fill := by
  rw [restart, topping]
  exact if_pos (by simp [filling, ended])

theorem restart_topup_again (again : f.topupEnd ≠ some .cutoff) : s.restart = ({ s with filler := { s.filler with
    flow := none, fill := some { f with topupEnd := none } } } : State).topupGate := by
  rw [restart, topping]
  dsimp only
  rw [if_neg (by simp [filling, again]), modifyFill_eq (f := f) (by exact filling)]

end Topup

theorem restart_reject (rejecting : s.filler.step = .reject) :
    s.restart = { s with filler := { s.filler with rejectTimer := 0 } } := by
  rw [restart, rejecting]
  rfl

theorem restart_clear (clearing : s.filler.step = .clear) : s.restart = s.enterClear := by
  rw [restart, clearing]

theorem restart_rest (resting : s.filler.step ∈ ([.idle, .armed, .check, .accept, .mark] : List FillStep)) :
    s.restart = s := by
  simp only [List.mem_cons, List.not_mem_nil, or_false] at resting
  rcases resting with step | step | step | step | step <;> rw [restart, step]

/-! ### OUTFEED RUN (R101) -/

theorem outfeedRun_iff (s : State) : s.outfeedRun = true ↔ (s.filler.step = .mark
      ∨ (s.filler.step = .clear ∧ s.pins.chest = true) ∨ ∃ j, s.marker.job = some j ∧ j.requester = .remark)
    ∧ s.pins.hold = false ∧ s.books.station ≠ .offline ∧ s.inReset = false := by
  simp [outfeedRun, Option.any_eq_true, and_assoc, or_assoc]

end State

/-! ### O48 -/

/-- Settles O48: the CHEST input with and without HOLD, HOLD from its start to the restart, and OUTFEED RUN. -/
theorem chestAndHoldInputs : Obligations.ChestAndHoldInputs := by
  refine ⟨fun s level changed ready calm t ht => ?_, fun s q code low ready asked zero command idle => ?_,
    fun s free => ?_, fun s hold ready t u ht hu => ?_, fun s => ⟨State.restart_settling, fun k => State.restart_feed,
      fun f topping filling => ⟨State.restart_topup_cutoff topping filling, State.restart_topup_again topping filling⟩,
      State.restart_reject, State.restart_clear, State.restart_rest⟩, State.outfeedRun_iff⟩
  · rw [State.exec_chestEdge changed]
    refine ⟨fun hold => by rw [State.chestChanges_hold calm level hold, ht], fun free u hu => ?_⟩
    rw [State.chestChanges_free calm level free ready, ← ht]
    have step : u.filler.step = s.filler.step := by rw [hu]
    have weigh : u.weigh = s.weigh := by rw [hu, ht]
    have filler : t.filler = s.filler := by rw [ht]
    rw [← step, ← weigh]
    refine ⟨fun rise => ?_, fun fall => ?_⟩
    · have edge : t.chestEdgeAt level = u.chestRises := by rw [rise, State.chestEdgeAt_rise, hu, filler, rise]
      rw [edge]
      exact ⟨fun armed => congrArg _ (State.chestRises_armed armed),
        fun clearing capture => congrArg _ (State.chestRises_capture clearing capture),
        fun clearing others => congrArg _ (State.chestRises_clear clearing others),
        fun unarmed busy => congrArg _ (State.chestRises_rest unarmed busy)⟩
    · have edge : t.chestEdgeAt level = u.chestFalls := by rw [fall, State.chestEdgeAt_fall, hu, filler, fall]
      rw [edge]
      exact ⟨fun clearing => congrArg _ (State.chestFalls_clear clearing),
        fun filling => congrArg _ (State.chestFalls_filling filling),
        fun resting => congrArg _ (State.chestFalls_rest resting)⟩
  · rw [State.exec_chestEdge (by rw [low]; decide), State.chestChanges_zeroing ready asked zero command idle]
  · rw [State.exec_holdActive free, State.holdBegins_eq]
  · rw [State.exec_holdEnd hold, State.holdEnds_eq ready, hu, ht]

end Sys2Proof.Machine
end

section
/-! PROOFS. The text of a mark, its dots and used rows nozzle by nozzle, and REMARK (R126 to R129, R136; O21). -/

namespace Sys2Proof.Machine

/-! ### The nozzle set (R126) -/

/-- A sum of distinct powers of two has the chosen bits, and no others. -/
theorem foldl_two_pow_bits (p : Nat → Bool) (k : Nat) :
    (List.range k).foldl (fun a i => if p (i + 1) then a + 2 ^ i else a) 0 < 2 ^ k
    ∧ ∀ n, ((List.range k).foldl (fun a i => if p (i + 1) then a + 2 ^ i else a) 0).testBit n
        = (decide (n < k) && p (n + 1)) := by
  induction k with
  | zero => simp
  | succ k ih =>
    rw [List.range_succ, List.foldl_append, List.foldl_cons, List.foldl_nil]
    generalize (List.range k).foldl (fun a i => if p (i + 1) then a + 2 ^ i else a) 0 = sum at ih ⊢
    obtain ⟨bound, bits⟩ := ih
    have double : 2 ^ (k + 1) = 2 ^ k + 2 ^ k := by omega
    have top : sum.testBit k = false := Nat.testBit_lt_two_pow bound
    by_cases chosen : p (k + 1) = true
    · rw [if_pos chosen, Nat.add_comm sum]
      refine ⟨by omega, fun n => ?_⟩
      rcases Nat.lt_trichotomy n k with below | rfl | above
      · rw [Nat.testBit_two_pow_add_gt below, bits, decide_eq_true below, decide_eq_true (by omega)]
      · rw [Nat.testBit_two_pow_add_eq, top, chosen, decide_eq_true (by omega)]
        rfl
      · rw [Nat.testBit_lt_two_pow (Nat.lt_of_lt_of_le (by omega) (Nat.pow_le_pow_right two_pos above)),
          decide_eq_false (by omega), Bool.false_and]
    · rw [if_neg chosen]
      refine ⟨by omega, fun n => ?_⟩
      rw [bits]
      rcases Nat.lt_trichotomy n k with below | rfl | above
      · rw [decide_eq_true below, decide_eq_true (by omega)]
      · simp [chosen]
      · rw [decide_eq_false (by omega), decide_eq_false (by omega)]

theorem nozzleSet_getLsbD (p : Nat → Bool) (n : Nat) :
    (nozzleSet p).getLsbD n = (decide (n < 32) && p (n + 1)) := by
  rw [nozzleSet, BitVec.getLsbD_ofNat, (foldl_two_pow_bits p 32).2, ← Bool.and_assoc, Bool.and_self]

theorem nozzleSet_getLsbD_pred (p : Nat → Bool) {n : Nat} (first : 1 ≤ n) (last : n ≤ 32) :
    (nozzleSet p).getLsbD (n - 1) = p n := by
  rw [nozzleSet_getLsbD, decide_eq_true (by omega), Bool.true_and, Nat.sub_add_cancel first]

/-! ### The text (R127) -/

theorem digitChar_of_lt {d : Nat} (digit : d < 10) : digitChar d = BitVec.ofNat 8 (0x30 + d) := by
  rw [digitChar, Nat.mod_eq_of_lt digit]

theorem digitChar_of_eq {v q d : Nat} (split : v = 10 * q + d) (digit : d < 10) :
    digitChar v = BitVec.ofNat 8 (0x30 + d) := by
  rw [digitChar, split, Nat.mul_add_mod, Nat.mod_eq_of_lt digit]

/-- The decimal digits of the library, the highest first, while the fuel holds. -/
theorem decimal_eq_digits (fuel : Nat) : ∀ v, 1 ≤ v → v < 10 ^ (fuel + 1) →
    decimal fuel v = (Nat.digits 10 v).reverse.map (fun x => BitVec.ofNat 8 (0x30 + x)) := by
  induction fuel with
  | zero =>
    intro v pos bound
    rw [decimal, Nat.digits_of_lt 10 v (by omega) bound, digitChar_of_lt bound]
    rfl
  | succ fuel ih =>
    intro v pos bound
    rw [decimal]
    by_cases one : v < 10
    · rw [if_pos one, Nat.digits_of_lt 10 v (by omega) one, digitChar_of_lt one]
      rfl
    · rw [if_neg one, ih (v / 10) (by omega) (by rw [Nat.pow_succ] at bound; omega),
        Nat.digits_def' (by decide) pos, List.reverse_cons, List.map_append]
      rfl

theorem line2Of_digits {a b c d e f : Nat} (net gross : Nat) (ha : a < 10) (hb : b < 10) (hc : c < 10) (hd : d < 10)
    (he : e < 10) (hf : f < 10) : line2Of (1000 * a + 100 * b + 10 * c + d) (10 * e + f) net gross
      = ([a, b, c, d].map (fun x => BitVec.ofNat 8 (0x30 + x)) ++ [0x2D]
        ++ [e, f].map (fun x => BitVec.ofNat 8 (0x30 + x)) ++ [0x20, 0x4E] ++ weightText net ++ [0x20, 0x47]
        ++ weightText gross).take 20 := by
  rw [line2Of, digitChar_of_eq (q := 0) (d := a) (by omega) ha, digitChar_of_eq (q := a) (d := b) (by omega) hb,
    digitChar_of_eq (q := 10 * a + b) (d := c) (by omega) hc,
    digitChar_of_eq (q := 100 * a + 10 * b + c) (d := d) (by omega) hd,
    digitChar_of_eq (q := 0) (d := e) (by omega) he, digitChar_of_eq (q := e) (d := f) (by omega) hf]
  rfl

theorem weightText_of_lt {d : Nat} (digit : d < 10) : weightText d = [0x30, 0x2E, BitVec.ofNat 8 (0x30 + d)] := by
  rw [weightText, Nat.div_eq_of_lt digit, digitChar_of_lt digit]
  rfl

theorem weightText_digits {v d : Nat} (digit : d < 10) (pos : 1 ≤ v) (bound : v < 1000000) : weightText (10 * v + d)
    = (Nat.digits 10 v).reverse.map (fun x => BitVec.ofNat 8 (0x30 + x)) ++ [0x2E, BitVec.ofNat 8 (0x30 + d)] := by
  have tens : (10 * v + d) / 10 = v := by omega
  rw [weightText, tens, decimal_eq_digits 5 v pos bound, digitChar_of_eq rfl digit]

/-! ### The dots (R128) -/

/-- The upper rows are line 1's and the lower ones line 2's, with no line on rows 15 to 18. -/
theorem nozzleRow_iff (upper lower : Nat → Bool) (n : Nat) :
    (if n ≤ 14 then upper n else if 19 ≤ n then lower (n - 18) else false) = true
      ↔ (n ≤ 14 ∧ upper n = true) ∨ (19 ≤ n ∧ lower (n - 18) = true) := by
  by_cases high : n ≤ 14
  · simp [high, show ¬ 19 ≤ n by omega]
  · by_cases low : 19 ≤ n <;> simp [high, low]

theorem lineDot_iff_testBit (chars : List Byte) (col row : Nat) : lineDot chars col row = true
    ↔ ∃ c, chars[(col - 1) / 12]? = some c ∧ (col - 1) % 12 < 10
      ∧ (glyphRow c ((row + 1) / 2)).testBit (4 - (col - 1) % 12 / 2) = true := by
  rw [lineDot, ← List.head?_drop]
  cases chars.drop ((col - 1) / 12) <;> simp

/-- A line's dot is a dot of one of its glyphs, twice as wide and twice as high. -/
theorem lineDot_iff {chars : List Byte} {col row : Nat} (hcol : 1 ≤ col) (hrow : 1 ≤ row) :
    lineDot chars col row = true ↔ ∃ (c : Byte) (i x y : Nat), x < 5
      ∧ (col = 12 * i + 2 * x + 1 ∨ col = 12 * i + 2 * x + 2) ∧ chars[i]? = some c
      ∧ (row = 2 * y + 1 ∨ row = 2 * y + 2) ∧ ((glyphRows c)[y]?.getD 0).testBit (4 - x) = true := by
  rw [lineDot_iff_testBit]
  constructor
  · rintro ⟨c, char, wide, dot⟩
    refine ⟨c, (col - 1) / 12, (col - 1) % 12 / 2, (row + 1) / 2 - 1, by omega, by omega, char, by omega, dot⟩
  · rintro ⟨c, i, x, y, hx, column, char, dotRow, dot⟩
    have place : (col - 1) / 12 = i := by omega
    have across : (col - 1) % 12 / 2 = x := by omega
    have down : (row + 1) / 2 - 1 = y := by omega
    exact ⟨c, by rw [place, char], by omega, by rw [glyphRow, across, down, dot]⟩

theorem markDot_iff {line₁ line₂ : List Byte} {col n : Nat} (hcol : 1 ≤ col) (first : 1 ≤ n) (last : n ≤ 32) :
    markDot line₁ line₂ col n = true ↔ ∃ (c : Byte) (i x y : Nat), x < 5 ∧ y < 7
      ∧ (col = 12 * i + 2 * x + 1 ∨ col = 12 * i + 2 * x + 2)
      ∧ ((line₁[i]? = some c ∧ (n = 2 * y + 1 ∨ n = 2 * y + 2))
        ∨ (line₂[i]? = some c ∧ (n = 18 + 2 * y + 1 ∨ n = 18 + 2 * y + 2)))
      ∧ ((glyphRows c)[y]?.getD 0).testBit (4 - x) = true := by
  rw [markDot, nozzleRow_iff (lineDot line₁ col) (lineDot line₂ col)]
  constructor
  · rintro (⟨upper, dots⟩ | ⟨lower, dots⟩)
    · obtain ⟨c, i, x, y, hx, column, char, row, dot⟩ := (lineDot_iff hcol first).mp dots
      exact ⟨c, i, x, y, hx, by omega, column, .inl ⟨char, row⟩, dot⟩
    · obtain ⟨c, i, x, y, hx, column, char, row, dot⟩ := (lineDot_iff hcol (by omega)).mp dots
      exact ⟨c, i, x, y, hx, by omega, column, .inr ⟨char, by omega⟩, dot⟩
  · rintro ⟨c, i, x, y, hx, hy, column, ⟨char, row⟩ | ⟨char, row⟩, dot⟩
    · exact .inl ⟨by omega, (lineDot_iff hcol first).mpr ⟨c, i, x, y, hx, column, char, row, dot⟩⟩
    · exact .inr ⟨by omega, (lineDot_iff hcol (by omega)).mpr ⟨c, i, x, y, hx, column, char, by omega, dot⟩⟩

theorem columnOf_getLsbD_iff (j : Job) {position n : Nat} (first : 1 ≤ n) (last : n ≤ 32) :
    (columnOf j position).getLsbD (n - 1) = true
      ↔ position ≤ j.markLength ∧ markDot j.line1 j.line2 position n = true := by
  unfold columnOf
  split
  · next within => rw [nozzleSet_getLsbD_pred _ first last, and_iff_right within]
  · next beyond => simp [beyond]

/-! ### The used rows (R128) -/

theorem lineUses_iff {chars : List Byte} {row : Nat} (hrow : 1 ≤ row) : lineUses chars row = true
    ↔ ∃ (c : Byte) (y : Nat), c ∈ chars ∧ (row = 2 * y + 1 ∨ row = 2 * y + 2) ∧ (glyphRows c)[y]?.getD 0 ≠ 0 := by
  rw [lineUses, List.any_eq_true]
  constructor
  · rintro ⟨c, char, dots⟩
    exact ⟨c, (row + 1) / 2 - 1, char, by omega, of_decide_eq_true dots⟩
  · rintro ⟨c, y, char, place, dots⟩
    have down : (row + 1) / 2 - 1 = y := by omega
    exact ⟨c, char, decide_eq_true (by rwa [glyphRow, down])⟩

theorem markUses_iff {line₁ line₂ : List Byte} {n : Nat} (first : 1 ≤ n) (last : n ≤ 32) :
    markUses line₁ line₂ n = true ↔ ∃ (c : Byte) (y : Nat), y < 7
      ∧ ((c ∈ line₁ ∧ (n = 2 * y + 1 ∨ n = 2 * y + 2)) ∨ (c ∈ line₂ ∧ (n = 18 + 2 * y + 1 ∨ n = 18 + 2 * y + 2)))
      ∧ (glyphRows c)[y]?.getD 0 ≠ 0 := by
  rw [markUses, nozzleRow_iff (lineUses line₁) (lineUses line₂)]
  constructor
  · rintro (⟨upper, uses⟩ | ⟨lower, uses⟩)
    · obtain ⟨c, y, char, row, dots⟩ := (lineUses_iff first).mp uses
      exact ⟨c, y, by omega, .inl ⟨char, row⟩, dots⟩
    · obtain ⟨c, y, char, row, dots⟩ := (lineUses_iff (by omega)).mp uses
      exact ⟨c, y, by omega, .inr ⟨char, by omega⟩, dots⟩
  · rintro ⟨c, y, hy, ⟨char, row⟩ | ⟨char, row⟩, dots⟩
    · exact .inl ⟨by omega, (lineUses_iff first).mpr ⟨c, y, char, row, dots⟩⟩
    · exact .inr ⟨by omega, (lineUses_iff (by omega)).mpr ⟨c, y, char, by omega, dots⟩⟩

/-! ### The checks of REMARK in their order (R136) -/

namespace State

variable {s : State} {n k : Nat}

theorem remarkRefusal_headless (bare : s.marker.head = none) : s.remarkRefusal n k = some .notActive :=
  if_pos (by rw [bare]; rfl)

theorem remarkRefusal_busy (head : s.marker.head ≠ none)
    (busy : s.filler.step ≠ .idle ∨ s.marker.chain ≠ .headIdle ∨ s.pins.chest = true) :
    s.remarkRefusal n k = some .busy := by
  rw [remarkRefusal, if_neg (by simpa using head), if_pos (by simpa [or_assoc] using busy)]

section Resting
variable (head : s.marker.head ≠ none) (idle : s.filler.step = .idle) (unmarked : s.marker.chain = .headIdle)
  (low : s.pins.chest = false)
include head idle unmarked low

theorem remarkRefusal_absent (absent : s.books.chest? n k = none) : s.remarkRefusal n k = some .notActive := by
  simp [remarkRefusal, head, idle, unmarked, low, absent]

/-- Past R136's checks of the lane: NOT_OWN, then the mark status. -/
theorem remarkRefusal_of_found {c : Chest} (packed : s.books.chest? n k = some c) : s.remarkRefusal n k
    = if c.origin ≠ .own then some .notOwn else if c.mark = .pending ∨ c.mark = .defect then none
      else some .notActive := by
  simp [remarkRefusal, head, idle, unmarked, low, packed]

end Resting

/-! ### The command -/

theorem exec_remark (p : Params) (s : State) : exec (.remark p) s = .next (s.hostCommand 0x24 p noData
    (fun t => t.remarkBody (num2 p.stated 0) (byteAt p.stated 2))) := rfl

/-- REMARK refused past the first four checks is answered, and does nothing else. -/
theorem exec_remark_refused {p : Params} (admitted : s.admits 0x24 p) {st : Status}
    (refused : s.remarkRefusal (num2 p.stated 0) (byteAt p.stated 2) = some st) :
    exec (.remark p) s = .next (s.answers 0x24 p st []) := by
  have checked : (s.take 0x24 (p.stated.length + p.beyond.length)).remarkRefusal (num2 p.stated 0) (byteAt p.stated 2)
      = some st := refused
  rw [exec_remark, hostCommand_admits admitted, remarkBody, checked]
  rfl

/-- REMARK taken starts the mark of the record. -/
theorem exec_remark_taken {p : Params} (admitted : s.admits 0x24 p)
    (pass : s.remarkRefusal (num2 p.stated 0) (byteAt p.stated 2) = none) :
    exec (.remark p) s = .next (((s.take 0x24 (p.stated.length + p.beyond.length)).startMark .remark
      (num2 p.stated 0) (byteAt p.stated 2)).reply .ok []) := by
  have checked : (s.take 0x24 (p.stated.length + p.beyond.length)).remarkRefusal (num2 p.stated 0) (byteAt p.stated 2)
      = none := pass
  rw [exec_remark, hostCommand_admits admitted, remarkBody, checked]

end State

/-! ### O21 -/

/-- Settles O21: R136's checks in their order, the start of the mark (O46), and the text, the dots and the used rows. -/
theorem remarkStartsAMark : Obligations.RemarkStartsAMark := by
  refine ⟨?_, fun a b c d e f net gross ha hb hc hd he hf => line2Of_digits net gross ha hb hc hd he hf,
    fun v d hd => ⟨weightText_of_lt hd, weightText_digits hd⟩, fun g listed => ?_, fun j p n hp first last => ?_,
    fun line₁ line₂ n first last => ?_⟩
  · rintro p s _ _ admitted rfl rfl
    refine ⟨fun bare => State.exec_remark_refused admitted (State.remarkRefusal_headless bare),
      fun head busy => State.exec_remark_refused admitted (State.remarkRefusal_busy head busy),
      fun h head idle unmarked low => ?_⟩
    have present : s.marker.head ≠ none := by rw [head]; exact Option.some_ne_none h
    refine ⟨fun absent => State.exec_remark_refused admitted
      (State.remarkRefusal_absent present idle unmarked low absent), fun c packed => ?_⟩
    have checks := State.remarkRefusal_of_found present idle unmarked low packed
    refine ⟨fun heard => ?_, fun own done => ?_, fun r own undone found => ?_⟩
    · exact State.exec_remark_refused admitted (by rw [checks, if_pos (by rw [heard]; decide)])
    · have marked : ¬ (c.mark = .pending ∨ c.mark = .defect) := by
        rcases done with mark | mark <;> rw [mark] <;> decide
      exact State.exec_remark_refused admitted (by rw [checks, if_neg (not_not_intro own), if_neg marked])
    · have pass : s.remarkRefusal (num2 p.stated 0) (byteAt p.stated 2) = none := by
        rw [checks, if_neg (not_not_intro own), if_pos undone]
      obtain ⟨-, starts, -⟩ := acceptGivesTheLowestSerial
      obtain ⟨j, path, started, job⟩ := starts (s.take 0x24 (p.stated.length + p.beyond.length)) .remark
        (num2 p.stated 0) (byteAt p.stated 2) h r c head found packed
      exact ⟨j, path, by rw [State.exec_remark_taken admitted pass, started]; rfl, job⟩
  · rcases listed with listed | listed | listed <;> revert g <;> decide
  · rw [columnOf_getLsbD_iff j first last, markDot_iff hp first last]
  · rw [nozzleSet_getLsbD_pred _ first last, markUses_iff first last]

end Sys2Proof.Machine
end

section
/-! PROOFS. Encoder pulses, SHIFTs, firing pulses, HALT and the end of a mark, and the lines of the chain (R125, R126, R130
to R135; O49). -/

namespace Sys2Proof.Machine

/-! ### The head chain, with the head's two settings written out (R126) -/

theorem Head.nozzleAt_pred (h : Head) (n : Nat) : h.nozzleAt n - 1 = if h.nozzle32First then 32 - n else n - 1 := by
  unfold Head.nozzleAt
  split <;> omega

theorem Head.readyOf_eq (h : Head) (dataIn : BitVec 32) :
    h.readyOf dataIn = nozzleSet (fun n => dataIn.getLsbD (if h.nozzle32First then 32 - n else n - 1)) := by
  simp only [Head.readyOf, h.nozzleAt_pred]

theorem Head.stored_eq (h : Head) (sent : List Bool) :
    h.stored sent = nozzleSet (fun n => (sent[if h.nozzle32First then 32 - n else n - 1]?).getD false) := by
  simp only [Head.stored, h.nozzleAt_pred]

/-- The path holds what a SHIFT sent: the place of a nozzle in the chain is its own inverse. -/
theorem Head.stored_sends (h : Head) (fire : BitVec 32) :
    h.stored (h.sends fire) = if h.activeLow then ~~~fire else fire := by
  rw [Head.stored_eq, Head.sends_eq]
  refine BitVec.eq_of_getLsbD_eq fun n below => ?_
  rw [nozzleSet_getLsbD, decide_eq_true below, Bool.true_and]
  cases h.nozzle32First with
  | true =>
    have place : 31 - n < 32 := by omega
    have back : 31 - (31 - n) = n := by omega
    simp [List.getElem?_range place, back]
  | false => simp [List.getElem?_range below]

theorem Marker.startShift_eq {m : Marker} {h : Head} (head : m.head = some h) (j : Job) : m.startShift j = { m with
    chain := .shift, job := some j, sends := (List.range 32).map (fun i =>
      (if h.activeLow then ~~~(columnOf j j.position) else columnOf j j.position).getLsbD
        (if h.nozzle32First then 31 - i else i)) } := by
  rw [← h.sends_eq, Marker.startShift, head]
  rfl

theorem Marker.clearLatch_eq {m : Marker} {h : Head} (head : m.head = some h) :
    m.clearLatch = { m with firing := none, latch := if h.activeLow then BitVec.allOnes 32 else 0 } := by
  rw [Marker.clearLatch, head]
  rfl

/-- Only a SHIFT in progress leaves the path free (log 42). -/
theorem Marker.cutShift_eq (m : Marker) : ∃ (path : BitVec 32) (k : Nat),
    (m.chain ≠ .shift → path = m.path ∧ k = m.unknown) ∧ m.cutShift = { m with path := path, unknown := k } := by
  unfold Marker.cutShift
  split
  · next shifting => exact ⟨_, _, fun other => absurd shifting other, rfl⟩
  · exact ⟨_, _, fun _ => ⟨rfl, rfl⟩, rfl⟩

/-! ### The end of a mark in the tables (R133) -/

namespace Books

variable {b : Books} {n k : Nat} {defect : Bool}

theorem markDone_own {c : Chest} (packed : b.chest? n k = some c) (own : c.origin = .own) {m : MarkStatus}
    (hm : m = if defect then .defect else .good) : b.markDone n k defect
      = ((b.putChest { c with mark := m }).queueFrame none (.mark n k m.num)).raiseNotice .markDone
          (some n) (some k) (some m.num) := by
  have present : b.ownChest? n k = some c := by rw [ownChest?, packed]; exact if_pos (decide_eq_true own)
  rw [markDone, present, hm]

theorem markDone_gone (gone : ∀ c, b.chest? n k = some c → c.origin = .heard) :
    b.markDone n k defect = b.raiseNotice .markDone (some n) (some k) (some 0) := by
  have absent : b.ownChest? n k = none := by
    rw [ownChest?, Option.filter_eq_none_iff]
    exact fun c packed => by rw [gone c packed]; decide
  rw [markDone, absent]

end Books

namespace State

variable {s : State} {j : Job}

theorem endMark_eq (s : State) (j : Job) : s.endMark j =
    (let u : State := { s with
      marker := { s.marker.clearLatch with chain := .headIdle, job := none },
      books := s.books.markDone j.invoice j.serial j.defect }
    if j.requester = .fill ∧ s.filler.step = .mark then u.enterClear else u) := by
  unfold endMark
  cases requester : j.requester with
  | fill => simp only [true_and]; rfl
  | remark => exact (if_neg (by simp)).symm

theorem haltMark_unmarked (unmarked : s.marker.job = none) : s.haltMark = s := by rw [haltMark, unmarked]

theorem haltMark_marking (marking : s.marker.job = some j) : s.haltMark = (s.setMarker s.marker.cutShift).endMark
    { j with defect := j.defect || decide (j.position ≤ j.markLength) } := by rw [haltMark, marking]

/-! ### ENCODER_PULSE (R131, R132, R134) -/

theorem exec_encoderPulse_unmarked (unmarked : s.marker.job = none) : exec .encoderPulse s = .next s := by
  change execEncoderPulse s = _
  rw [execEncoderPulse, unmarked]

section Marking
variable (marking : s.marker.job = some j)
include marking

theorem exec_encoderPulse_hold (hold : s.pins.hold = true) : exec .encoderPulse s = .next s := by
  change execEncoderPulse s = _
  rw [execEncoderPulse, marking]
  exact congrArg _ (if_pos hold)

theorem exec_encoderPulse_free (free : s.pins.hold = false) : exec .encoderPulse s = .next (s.pulse j) := by
  change execEncoderPulse s = _
  rw [execEncoderPulse, marking]
  exact congrArg _ (if_neg (by simp [free]))

end Marking

theorem pulse_next {h : Head} (head : s.marker.head = some h) (waiting : s.marker.chain = .wait)
    (more : j.position < j.positions) : s.pulse j = { s with marker := { s.marker with
      latch := s.marker.path, firing := some s.books.time, chain := .shift,
      job := some { j with position := j.position + 1 },
      sends := (List.range 32).map (fun i => (if h.activeLow then ~~~(columnOf j (j.position + 1))
        else columnOf j (j.position + 1)).getLsbD (if h.nozzle32First then 31 - i else i)) } } := by
  rw [pulse, waiting]
  dsimp only
  rw [if_pos more, Marker.startShift_eq (h := h) (by exact head)]
  rfl

theorem pulse_last (waiting : s.marker.chain = .wait) (last : j.positions ≤ j.position) :
    s.pulse j = ({ s with marker := { s.marker with
      latch := s.marker.path, firing := some s.books.time } } : State).endMark j := by
  rw [pulse, waiting]
  exact if_neg (by omega)

theorem pulse_late (busy : s.marker.chain = .shift ∨ s.marker.chain = .capture) : s.pulse j = { s with
    marker := { s.marker with job := some { j with late := j.late + 1, defect := true } },
    books := s.books.raiseFault .markLate } := by
  rcases busy with chain | chain <;> rw [pulse, chain] <;> rfl

/-! ### SHIFT_DONE (R130, R132) -/

theorem exec_shiftDone {h : Head} (head : s.marker.head = some h) (marking : s.marker.job = some j)
    (shifting : s.marker.chain = .shift) (x : BitVec 32) : exec (.shiftDone x) s = .next (s.shiftDone h j x) := by
  change execShiftDone x s = _
  rw [execShiftDone, head, marking]
  exact congrArg _ (if_pos shifting)

/-- The nozzle check at the end of the first SHIFT, and of no later one (R130). -/
theorem shiftDone_eq {h : Head} {j' : Job} {bad : Bool} {x : BitVec 32} (marking : s.marker.job = some j)
    (hbad : bad = decide (j.usedRows &&& ~~~(h.readyOf x) ≠ 0))
    (hj : j' = if j.ready = none then { j with ready := some (h.readyOf x), defect := j.defect || bad } else j) :
    s.shiftDone h j x = ({ s with
      marker := { s.marker with job := some j' },
      books := if j.ready ≠ none then s.books
        else if bad then s.books.raiseFault .headNozzle else s.books.clearCause .headNozzle } : State).shiftEnds h := by
  rw [shiftDone]
  cases ready : j.ready with
  | none =>
    rw [if_pos ready] at hj
    rw [hj, hbad, nozzleCheck]
    dsimp only
    by_cases unready : j.usedRows &&& ~~~(h.readyOf x) ≠ 0
    · rw [if_pos unready, decide_eq_true unready]; rfl
    · rw [if_neg unready, decide_eq_false unready]; rfl
  | some _ =>
    rw [if_neg (by simp [ready])] at hj
    rw [hj, ← marking]
    rfl

section Ends
variable {h : Head} (marking : s.marker.job = some j)
include marking

theorem shiftEnds_wait (punctual : j.late = 0) : s.shiftEnds h = { s with marker := { s.marker with
    path := h.stored s.marker.sends, chain := .wait } } := by
  rw [shiftEnds, marking]
  exact if_pos punctual

theorem shiftEnds_skip (head : s.marker.head = some h) (shifting : s.marker.chain = .shift) (late : 0 < j.late)
    (more : j.position + j.late ≤ j.positions) : s.shiftEnds h = { s with marker := { s.marker with
      path := h.stored s.marker.sends,
      job := some { j with position := j.position + j.late, late := 0 },
      sends := (List.range 32).map (fun i => (if h.activeLow then ~~~(columnOf j (j.position + j.late))
        else columnOf j (j.position + j.late)).getLsbD (if h.nozzle32First then 31 - i else i)) } } := by
  rw [shiftEnds, marking]
  dsimp only
  rw [if_neg (by omega), if_pos more, Marker.startShift_eq (h := h) (by exact head), ← shifting]
  rfl

theorem shiftEnds_last (late : 0 < j.late) (past : j.positions < j.position + j.late) : s.shiftEnds h
    = ({ s with marker := { s.marker with path := h.stored s.marker.sends } } : State).endMark { j with late := 0 } := by
  rw [shiftEnds, marking]
  dsimp only
  rw [if_neg (by omega), if_neg (by omega)]
  rfl

end Ends

/-! ### FIRING_PULSE_END (R131) -/

theorem exec_firingPulseEnd {at_ : Time} {h : Head} (firing : s.marker.firing = some at_)
    (head : s.marker.head = some h) : exec .firingPulseEnd s = .next { s with marker := { s.marker with
      firing := none, latch := if h.activeLow then BitVec.allOnes 32 else 0 } } := by
  rw [← Marker.clearLatch_eq head]
  exact congrArg Host.Outcome.next (if_pos (by rw [firing]; rfl))

/-! ### The lines of the chain (R125, R126) -/

theorem chain_rests (rest : s.marker.chain = .headIdle ∨ s.marker.chain = .wait) :
    s.chainOut = .rest ∧ s.dataOut = [false] := by
  rcases rest with chain | chain <;> simp [chainOut, dataOut, chain]

theorem chain_captures (capturing : s.marker.chain = .capture) :
    s.chainOut = .operation .capture ∧ s.dataOut = [false] := by
  simp [chainOut, dataOut, capturing]

theorem chain_shifts (shifting : s.marker.chain = .shift) :
    s.chainOut = .operation .shift ∧ s.dataOut = s.marker.sends := by
  simp [chainOut, dataOut, shifting]

end State

/-! ### O49 -/

/-- Settles O49: a pulse and a SHIFT by the state of the chain, the check of the nozzles, the firing pulse, the end of a
mark, HALT, and the lines of the chain. -/
theorem marksFollowTheEncoder : Obligations.MarksFollowTheEncoder := by
  refine ⟨fun s => State.exec_encoderPulse_unmarked, fun s j h marking head => ⟨State.exec_encoderPulse_hold marking,
      fun free waiting more column hcol => ?_, fun free waiting last => ?_, fun free busy => ?_⟩,
    fun s j j' h x bad t marking head shifting hbad hj ht => ?_, fun h sent fire hsent => ?_, nozzleSet_getLsbD,
    fun s h at_ firing head => State.exec_firingPulseEnd firing head, fun s j m t hm ht => ?_,
    fun s => ⟨State.haltMark_unmarked, fun j marking => ?_⟩,
    fun s => ⟨State.chain_rests, State.chain_captures, State.chain_shifts⟩⟩
  · rw [State.exec_encoderPulse_free marking free, State.pulse_next head waiting more, hcol]
  · rw [State.exec_encoderPulse_free marking free, State.pulse_last waiting last]
  · rw [State.exec_encoderPulse_free marking free, State.pulse_late busy]
  · rw [← Head.readyOf_eq] at hbad hj
    rw [← Head.stored_eq] at ht
    have late : j'.late = j.late := by rw [hj]; split <;> rfl
    have position : j'.position = j.position := by rw [hj]; split <;> rfl
    have positions : j'.positions = j.positions := by rw [hj]; split <;> rfl
    have columns : columnOf j' = columnOf j := by rw [hj]; split <;> rfl
    rw [State.exec_shiftDone head marking shifting, State.shiftDone_eq marking hbad hj, ht, ← late, ← position,
      ← positions, ← columns]
    refine ⟨fun punctual => ?_, fun behind more column hcol => ?_, fun behind past => ?_⟩
    · rw [State.shiftEnds_wait rfl punctual]
    · rw [State.shiftEnds_skip (j := j') rfl (by exact head) (by exact shifting) behind more, hcol]
    · rw [State.shiftEnds_last rfl behind past]
  · rw [← Head.stored_eq, hsent, ← Head.sends_eq, Head.stored_sends]
  · rw [State.endMark_eq, ht]
    refine ⟨fun c packed own u hu => ?_, fun gone u hu => ?_⟩
    · rw [Books.markDone_own packed own hm, hu]
    · rw [Books.markDone_gone gone, hu]
  · obtain ⟨path, k, kept, cut⟩ := s.marker.cutShift_eq
    exact ⟨path, k, kept, by rw [State.haltMark_marking marking, cut]; rfl⟩

end Sys2Proof.Machine
end

section
/-! PROOFS. The reservation's number, the bin check of a component, and the claim check (R55, R82, R138, R139; O17). -/

namespace Sys2Proof.Machine

theorem Chest.orphan?_eq_some {c : Chest} {k : Nat} : c.orphan? = some k ↔ c.key = .orphan k := by
  cases key : c.key <;> simp [orphan?, key]

/-! ### The counter (R139) -/

theorem nextReservation_inside (k : Nat) : 1 ≤ nextReservation k ∧ nextReservation k ≤ 255 := by
  unfold nextReservation
  split <;> omega

theorem nextReservation_eq {k : Nat} (small : k ≤ 255) : nextReservation k = k % 255 + 1 := by
  unfold nextReservation
  split <;> omega

namespace Books

variable {b : Books}

/-! ### The numbers that ORPHAN records hold (R139) -/

theorem orphanHolds_iff {k : Nat} : b.orphanHolds k = true ↔ ∃ c ∈ b.chests, c.key = .orphan k := by
  simp [orphanHolds, Chest.orphan?_eq_some]

theorem orphanHolds_eq_false {k : Nat} : b.orphanHolds k = false ↔ ∀ c ∈ b.chests, c.key ≠ .orphan k := by
  simp [Bool.eq_false_iff, orphanHolds_iff]

/-- A number found is a number that the counter reaches, and no ORPHAN record holds it. -/
theorem reservationFrom_some {fuel j k : Nat} (found : b.reservationFrom fuel j = some k) :
    (1 ≤ k ∧ k ≤ 255) ∧ b.orphanHolds k = false := by
  induction fuel generalizing j with
  | zero => cases found
  | succ fuel ih =>
    rw [reservationFrom] at found
    split at found
    · exact ih found
    · next unheld =>
      cases found
      exact ⟨nextReservation_inside j, by simpa using unheld⟩

/-- The counter passes the numbers held, and takes the first that is not. -/
theorem reservationFrom_first {fuel j k : Nat} (small : k ≤ 255) (enough : j < fuel)
    (held : ∀ i < j, b.orphanHolds ((k + i) % 255 + 1) = true) (unheld : b.orphanHolds ((k + j) % 255 + 1) = false) :
    b.reservationFrom fuel k = some ((k + j) % 255 + 1) := by
  induction fuel generalizing j k with
  | zero => omega
  | succ fuel ih =>
    rw [reservationFrom, nextReservation_eq small]
    cases j with
    | zero => exact if_neg (by simpa using unheld)
    | succ j =>
      have onward : ∀ i, (k % 255 + 1 + i) % 255 + 1 = (k + (i + 1)) % 255 + 1 := fun i => by omega
      have first : b.orphanHolds (k % 255 + 1) = true := held 0 (by omega)
      have later := ih (j := j) (k := k % 255 + 1) (by omega) (by omega)
      simp only [onward] at later
      rw [if_pos first, later (fun i below => held (i + 1) (by omega)) unheld]

theorem reservationFrom_none (held : ∀ k, 1 ≤ k → k ≤ 255 → b.orphanHolds k = true) (fuel j : Nat) :
    b.reservationFrom fuel j = none := by
  induction fuel generalizing j with
  | zero => rfl
  | succ fuel ih =>
    obtain ⟨low, up⟩ := nextReservation_inside j
    rw [reservationFrom, if_pos (held _ low up), ih]

/-! ### The bin check (R82) -/

theorem binCheck_unavailable {n : Nat} (state : (b.bin n).state = .empty ∨ (b.bin n).state = .withdrawn) (target : Nat) :
    b.binCheck n target = some .binUnavailable := by
  rcases state with state | state <;> rw [binCheck, state]

theorem binCheck_unknown {n : Nat} (state : (b.bin n).state = .unknown) (target : Nat) : b.binCheck n target = none := by
  rw [binCheck, state]

theorem binCheck_held {n q : Nat} (state : (b.bin n).state = .stocked ∨ (b.bin n).state = .low)
    (remaining : (b.bin n).remaining = some q) (target : Nat) :
    b.binCheck n target = if q < (target + 5) / 10 then some .binShort else none := by
  rw [← roundHalfUp_ten]
  rcases state with state | state <;> rw [binCheck, state, remaining] <;> rfl

/-! ### The claim check (R55) -/

theorem claimCheck_absent {n : Nat} (absent : b.invoice? n = none) : b.claimCheck n = b := by rw [claimCheck, absent]

theorem claimCheck_found {n : Nat} {r : Invoice} (found : b.invoice? n = some r) : b.claimCheck n
    = if r.free ≠ [] ∨ (∃ e ∈ b.tx, e.frame.kind = 4 ∧ e.frame.invoice = n) ∨ b.station ≠ .online ∨ r.state ≠ .active
        then b
      else if r.high < r.ceiling
        then b.queueFrame none (.claim n r.planned (r.high + 1) (min b.blockSize (r.ceiling - r.high)))
      else b.raiseNotice .serialsExhausted (some n) none none := by
  simp [claimCheck, found, TxEntry.isClaimOf, claimCount, or_assoc]

end Books

/-! ### O17 -/

/-- Settles O17: where the counter stops, what a bin answers to the amount asked of it, and when a CLAIM is queued. -/
theorem reservationsBinAndClaimChecks : Obligations.ReservationsBinAndClaimChecks := by
  refine ⟨⟨fun b full => ?_, fun b k reserved => ?_, fun b j free small below held unheld => ?_, fun b held => ?_,
      fun b n target => ⟨fun state => Books.binCheck_unavailable state target,
        fun state => Books.binCheck_unknown state target,
        fun q state remaining => Books.binCheck_held state remaining target⟩⟩,
    fun b n => ⟨Books.claimCheck_absent, fun r found => ?_⟩⟩
  · exact if_neg (by omega)
  · obtain ⟨free, -⟩ := State.reservable_some reserved
    rw [Books.reservable, if_pos free] at reserved
    obtain ⟨inside, unheld⟩ := Books.reservationFrom_some reserved
    exact ⟨free, fun _ => inside, Books.orphanHolds_eq_false.1 unheld⟩
  · rw [Books.reservable, if_pos free]
    exact Books.reservationFrom_first small below (fun i before => Books.orphanHolds_iff.2 (held i before))
      (Books.orphanHolds_eq_false.2 unheld)
  · rw [Books.reservable,
      Books.reservationFrom_none (fun k low up => Books.orphanHolds_iff.2 (held k low up)), ite_self]
  · rw [Books.claimCheck_found found]
    refine ⟨fun barred => if_pos barred, fun empty unclaimed online active => ?_⟩
    rw [if_neg (by simp only [not_or, not_exists, not_not]; tauto)]
    exact ⟨fun room => if_pos room, fun exhausted => if_neg (by omega)⟩

end Sys2Proof.Machine
end

section
/-! PROOFS. READ CHEST and READ BIN: which record answers, and its bytes (R84, R148; O25). -/

namespace Sys2Proof.Machine

/-! ### The entry with the lowest key -/

theorem lowestBy_eq_none {α : Type} {key : α → Nat} {l : List α} : lowestBy key l = none ↔ l = [] := by
  cases l with
  | nil => simp [lowestBy]
  | cons x l =>
    rw [lowestBy]
    split
    · simp
    · split <;> simp

theorem lowestBy_some {α : Type} {key : α → Nat} {l : List α} {y : α} (least : lowestBy key l = some y) :
    y ∈ l ∧ ∀ z ∈ l, key y ≤ key z := by
  induction l generalizing y with
  | nil => cases least
  | cons x l ih =>
    rw [lowestBy] at least
    split at least
    · next none =>
      cases least
      simp [lowestBy_eq_none.1 none]
    · next v below =>
      obtain ⟨member, lowest⟩ := ih below
      split at least
      · next smaller =>
        cases least
        exact ⟨List.mem_cons_of_mem x member, List.forall_mem_cons.2 ⟨by omega, lowest⟩⟩
      · next larger =>
        cases least
        have first : key x ≤ key v := by omega
        exact ⟨List.mem_cons_self, List.forall_mem_cons.2 ⟨le_rfl, fun z hz => first.trans (lowest z hz)⟩⟩

/-- An entry below every other is the one that is found. -/
theorem lowestBy_of_least {α : Type} {key : α → Nat} {l : List α} {x : α} (member : x ∈ l)
    (least : ∀ y ∈ l, key x < key y ∨ y = x) : lowestBy key l = some x := by
  cases found : lowestBy key l with
  | none => simp [lowestBy_eq_none.1 found] at member
  | some y =>
    obtain ⟨hy, lowest⟩ := lowestBy_some found
    rcases least y hy with above | rfl
    · exact absurd (lowest x member) (by omega)
    · rfl

/-! ### READ CHEST (R148) -/

theorem Chest.serial?_eq_some {c : Chest} {x : Nat} : c.serial? = some x ↔ c.key = .packed x := by
  cases key : c.key <;> simp [serial?, key]

namespace Books

variable {b : Books} {n k : Nat} {numberOf : Chest → Option Nat} {keyOf : Nat → ChestKey}

/-- The record of an invoice with the lowest number at or above `k`, the number being its serial or its reservation
number: `packedFrom` and `orphanFrom` in one. -/
def numberedFrom (numberOf : Chest → Option Nat) (b : Books) (n k : Nat) : Option Chest :=
  lowestBy (fun c => (numberOf c).getD 0)
    (b.chests.filter (fun c => c.invoice = n && (numberOf c).any (fun x => k ≤ x)))

section Numbered
variable (numbered : ∀ c x, numberOf c = some x ↔ c.key = keyOf x)
include numbered

theorem mem_numbered {c : Chest} :
    c ∈ b.chests.filter (fun c => c.invoice = n && (numberOf c).any (fun x => k ≤ x))
      ↔ c ∈ b.chests ∧ c.invoice = n ∧ ∃ x, c.key = keyOf x ∧ k ≤ x := by
  simp [Option.any_eq_true, numbered]

theorem numberedFrom_none (below : ∀ c ∈ b.chests, c.invoice = n → ∀ x, c.key = keyOf x → x < k) :
    b.numberedFrom numberOf n k = none := by
  refine lowestBy_eq_none.2 (List.eq_nil_iff_forall_not_mem.2 fun c hc => ?_)
  obtain ⟨member, invoice, x, key, above⟩ := (mem_numbered numbered).1 hc
  exact absurd (below c member invoice x key) (by omega)

theorem numberedFrom_least {c : Chest} {x : Nat} (member : c ∈ b.chests) (invoice : c.invoice = n)
    (key : c.key = keyOf x) (above : k ≤ x)
    (least : ∀ d ∈ b.chests, d.invoice = n → ∀ y, d.key = keyOf y → k ≤ y → x < y ∨ d = c) :
    b.numberedFrom numberOf n k = some c := by
  refine lowestBy_of_least ((mem_numbered numbered).2 ⟨member, invoice, x, key, above⟩) fun d hd => ?_
  obtain ⟨hd, other, y, keyed, reaches⟩ := (mem_numbered numbered).1 hd
  simpa [(numbered c x).2 key, (numbered d y).2 keyed] using least d hd other y keyed reaches

end Numbered

end Books

theorem exec_readChest (p : Params) (s : State) : exec (.readChest p) s = .next (s.hostCommand 0x41 p noData
    (fun t => t.readChestBody (num2 p.stated 0) (byteAt p.stated 2) (byteAt p.stated 3))) := rfl

theorem selector_inRange_iff {selector k : Nat} (byte : k ≤ 255) :
    (selector = 1 && inside 1 99 k || selector = 2 && inside 1 255 k) = true
      ↔ (selector = 1 ∧ 1 ≤ k ∧ k ≤ 99) ∨ (selector = 2 ∧ 1 ≤ k) := by
  simp only [Bool.or_eq_true, Bool.and_eq_true, decide_eq_true_eq, inside_iff]
  omega

/-- A selector and a number in range read the records of one kind of key. -/
theorem selected_kind {selector k : Nat} {keyOf : Nat → ChestKey}
    (selects : (selector = 1 ∧ 1 ≤ k ∧ k ≤ 99 ∧ keyOf = .packed) ∨ (selector = 2 ∧ 1 ≤ k ∧ keyOf = .orphan)) :
    ((selector = 1 ∧ 1 ≤ k ∧ k ≤ 99) ∨ (selector = 2 ∧ 1 ≤ k))
    ∧ ∃ numberOf : Chest → Option Nat, (∀ c x, numberOf c = some x ↔ c.key = keyOf x) ∧ ∀ (b : Books) (n : Nat),
        (if selector = 1 then b.packedFrom n k else b.orphanFrom n k) = b.numberedFrom numberOf n k := by
  rcases selects with ⟨rfl, low, up, rfl⟩ | ⟨rfl, low, rfl⟩
  · exact ⟨.inl ⟨rfl, low, up⟩, Chest.serial?, fun _ _ => Chest.serial?_eq_some, fun _ _ => rfl⟩
  · exact ⟨.inr ⟨rfl, low⟩, Chest.orphan?, fun _ _ => Chest.orphan?_eq_some, fun _ _ => rfl⟩

section Body
variable {s : State} {n selector k : Nat} (byte : k ≤ 255)
include byte

theorem readChestBody_range (outside : ¬ ((selector = 1 ∧ 1 ≤ k ∧ k ≤ 99) ∨ (selector = 2 ∧ 1 ≤ k))) :
    s.readChestBody n selector k = s.reply .range [] := by
  have refused := Bool.eq_false_iff.2 ((selector_inRange_iff byte).not.2 outside)
  rw [State.readChestBody, refused]
  rfl

variable (selected : (selector = 1 ∧ 1 ≤ k ∧ k ≤ 99) ∨ (selector = 2 ∧ 1 ≤ k))
include selected

theorem readChestBody_absent (absent : s.books.invoice? n = none) :
    s.readChestBody n selector k = s.reply .notActive [] := by
  rw [State.readChestBody, (selector_inRange_iff byte).2 selected, Books.hasInvoice, absent]
  rfl

/-- Past the refusals of the selector, the number and the invoice, the record found answers (R148). -/
theorem readChestBody_present (present : s.books.invoice? n ≠ none) {found : Option Chest}
    (read : (if selector = 1 then s.books.packedFrom n k else s.books.orphanFrom n k) = found) :
    (found = none → s.readChestBody n selector k = s.reply .notPresent [])
    ∧ ∀ c, found = some c → s.readChestBody n selector k = s.reply .ok c.data := by
  have has : s.books.hasInvoice n = true := Option.isSome_iff_ne_none.2 present
  rw [State.readChestBody, (selector_inRange_iff byte).2 selected, has, read]
  exact ⟨fun none => by rw [none]; rfl, fun c some => by rw [some]; rfl⟩

end Body

theorem drawBytes_eq (ds : List Draw) : drawBytes ds = be1 ds.length
    ++ (ds.map (fun d => be1 d.bin ++ be2 d.quantity)).flatten ++ List.replicate (3 * (4 - ds.length)) 0 := rfl

/-- The record's bytes, its number standing in the field that the selector names (R148). -/
theorem Chest.data_eq {c : Chest} {selector x : Nat} (selects : (selector = 1 ∧ c.key = .packed x)
    ∨ (selector = 2 ∧ c.key = .orphan x)) : c.data = be2 c.invoice ++ be1 (if selector = 1 then x else 0)
      ++ be1 (if selector = 2 then x else 0) ++ be1 c.station ++ be1 (if c.origin = .own then 1 else 2)
      ++ be1 selector ++ be2 c.gross ++ be2 c.tare ++ be2 c.net ++ be1 (c.sample.getD 0)
      ++ be1 (if c.offBlend then 1 else 0) ++ be1 c.mark.num ++ be1 (c.conflict.getD 0) ++ be1 c.draws.length
      ++ (c.draws.map (fun d => be1 d.bin ++ be2 d.quantity)).flatten
      ++ List.replicate (3 * (4 - c.draws.length)) 0 := by
  rcases selects with ⟨rfl, key⟩ | ⟨rfl, key⟩ <;> cases origin : c.origin <;>
    simp [Chest.data, Chest.serial?, Chest.orphan?, key, origin, beOpt1, beFlag, drawBytes_eq]

/-! ### READ BIN (R84) -/

theorem exec_readBin (p : Params) (s : State) : exec (.readBin p) s
    = .next (s.hostCommand 0x42 p noData (fun t => t.readBinBody (byteAt p.stated 0))) := rfl

theorem readBinBody_range (s : State) {n : Nat} (outside : n = 0 ∨ 64 < n) : s.readBinBody n = s.reply .range [] :=
  if_neg (by rw [inside_iff]; omega)

theorem readBinBody_bin (s : State) {n : Nat} (low : 1 ≤ n) (up : n ≤ 64) :
    s.readBinBody n = s.replySpending (s.books.binData n s.spare) := if_pos (inside_iff.2 ⟨low, up⟩)

theorem beFree2_eq (n : Nat) (v : Option Nat) : beFree2 n v = (v.map be2).getD (freeBytes n 2) := by
  cases v <;> rfl

/-! ### O25 -/

/-- Settles O25: which refusal answers, and the bytes of the record that is read. -/
theorem readChestAndBinGiveTheRecord : Obligations.ReadChestAndBinGiveTheRecord := by
  refine ⟨fun p s n k admitted hn hk => ?_, fun p s n admitted hn => ?_⟩
  · have byte : k ≤ 255 := by
      have := (p.stated[3]?.getD 0).isLt
      rw [hk, byteAt]
      omega
    rw [exec_readChest, State.hostCommand_admits admitted, ← hn, ← hk]
    refine ⟨fun outside => ?_, fun keyOf selects => ?_⟩
    · rw [readChestBody_range byte outside, State.reply_take]
      rfl
    · obtain ⟨selected, numberOf, numbered, kind⟩ := selected_kind selects
      refine ⟨fun absent => ?_, fun present => ?_⟩
      · rw [readChestBody_absent (s := s.take _ _) byte selected absent, State.reply_take]
        rfl
      · obtain ⟨missing, record⟩ :=
          readChestBody_present (s := s.take 0x41 (p.stated.length + p.beyond.length)) byte selected present (kind _ n)
        refine ⟨fun below => ?_, fun c x member invoice key above least => ?_⟩
        · rw [missing (Books.numberedFrom_none numbered below), State.reply_take]
          rfl
        · have keyed : (byteAt p.stated 2 = 1 ∧ c.key = .packed x) ∨ (byteAt p.stated 2 = 2 ∧ c.key = .orphan x) := by
            rcases selects with ⟨one, -, -, rfl⟩ | ⟨two, -, rfl⟩
            · exact .inl ⟨one, key⟩
            · exact .inr ⟨two, key⟩
          rw [record c (Books.numberedFrom_least numbered member invoice key above least), State.reply_take,
            Chest.data_eq keyed, invoice]
          rfl
  · rw [exec_readBin, State.hostCommand_admits admitted, ← hn]
    refine ⟨fun outside => ?_, fun low up => ⟨freeBytes s.spare 2, freeBytes (s.spare + 2) 2, freeBytes_length _ _,
      freeBytes_length _ _, ?_⟩⟩
    · rw [readBinBody_range _ outside, State.reply_take]
      rfl
    · rw [readBinBody_bin _ low up, State.replySpending_take, State.take_books, State.take_spare, Books.binData,
        beFree2_eq, beFree2_eq]

end Sys2Proof.Machine
end

section
/-! PROOFS. VOID, SAMPLE and MARK heard: the record under the key, by its origin and packing station (R144, R146, R147;
O36). -/

namespace Sys2Proof.Machine

/-- A frame of a filtered kind other than CHEST reaches the tables where its invoice stands, and the sender's repeat memory
becomes absent (R19, R32). -/
theorem State.receive_filtered {s : State} {q : Sender} {f : Frame} (taken : s.takes q f)
    (filtered : kindFiltered f.kind = true)
    (forgets : ∀ b : Books, b.remember q.number.toNat f = b.setRepeat q.number.toNat none) (hand : Books → Books) :
    s.receive q f hand = s.took q
      ((if s.books.hasInvoice f.invoice then hand s.books else s.books).setRepeat q.number.toNat none) := by
  rw [State.receive_takes taken, Books.passes_filtered _ filtered, forgets]

theorem voidFrame_acts {s : State} {q : Sender} {k : Byte} {n : BitVec 16} (taken : s.takes q (.void n.toNat k.toNat)) :
    exec (.voidFrame q n k) s = .next (s.took q ((if s.books.hasInvoice n.toNat
      then s.books.heardVoid q.number.toNat n.toNat k.toNat else s.books).setRepeat q.number.toNat none)) :=
  congrArg Host.Outcome.next (State.receive_filtered taken rfl (fun _ => rfl) _)

theorem sampleFrame_acts {s : State} {q : Sender} {k : Byte} {n w : BitVec 16}
    (taken : s.takes q (.sample n.toNat k.toNat w.toNat)) :
    exec (.sampleFrame q n k w) s = .next (s.took q ((if s.books.hasInvoice n.toNat
      then s.books.heardSample n.toNat k.toNat w.toNat else s.books).setRepeat q.number.toNat none)) :=
  congrArg Host.Outcome.next (State.receive_filtered taken rfl (fun _ => rfl) _)

theorem markFrame_acts {s : State} {q : Sender} {k m : Byte} {n : BitVec 16}
    (taken : s.takes q (.mark n.toNat k.toNat m.toNat)) :
    exec (.markFrame q n k m) s = .next (s.took q ((if s.books.hasInvoice n.toNat
      then s.books.heardMark q.number.toNat n.toNat k.toNat m.toNat else s.books).setRepeat q.number.toNat none)) :=
  congrArg Host.Outcome.next (State.receive_filtered taken rfl (fun _ => rfl) _)

/-- The mark status of a MARK frame's byte (R6). -/
theorem MarkStatus.ofNum_toNat (m : Byte) : MarkStatus.ofNum m.toNat
    = if m = 1 then .pending else if m = 2 then .good else if m = 3 then .defect else .none := by
  have byte : ∀ v : Byte, m = v ↔ m.toNat = v.toNat := fun v => BitVec.toNat_inj.symm
  simp only [byte]
  unfold MarkStatus.ofNum
  split <;> simp_all

namespace Books

variable {b : Books} {n k sender w : Nat}

/-! ### Where no record changes (R144, R146) -/

theorem notClosed_eq_false (closed : ∀ r, b.invoice? n = some r → r.state = .closed) : b.notClosed n = false := by
  simpa [notClosed, Option.any_eq_false] using closed

theorem notClosed_of_found {r : Invoice} (found : b.invoice? n = some r) (live : r.state ≠ .closed) :
    b.notClosed n = true := by simp [notClosed, found, live]

theorem heard_idle (idle : b.chest? n k = none ∨ ∀ r, b.invoice? n = some r → r.state = .closed) :
    b.heardVoid sender n k = b ∧ b.heardSample n k w = b := by
  unfold heardVoid heardSample
  rcases idle with absent | closed
  · rw [absent]
    exact ⟨rfl, rfl⟩
  · rw [notClosed_eq_false closed]
    cases b.chest? n k <;> exact ⟨rfl, rfl⟩

theorem heardMark_absent (absent : b.chest? n k = none) (status : Nat) : b.heardMark sender n k status = b := by
  rw [heardMark, absent]

/-! ### The record under the key (R144, R146, R147) -/

section Packed
variable {c : Chest} (packed : b.chest? n k = some c)
include packed

/-- A VOID heard takes its sender's own record away, or takes back the conflict that the sender caused. -/
theorem heardVoid_packed (live : b.notClosed n = true) : b.heardVoid sender n k
    = if c.origin = .heard ∧ c.station = sender
        then (b.dropChests (fun c => c.invoice = n && c.key = .packed k)).evalFull n
      else if c.conflict = some sender then b.putChest { c with conflict := none } else b := by
  simp [heardVoid, packed, live]

theorem heardSample_packed (live : b.notClosed n = true) : b.heardSample n k w
    = if c.sample = none ∧ w ≤ c.net then b.putChest { c with sample := some w } else b := by
  simp [heardSample, packed, live]

theorem heardMark_packed (status : Nat) : b.heardMark sender n k status
    = if c.origin = .heard ∧ c.station = sender then b.putChest { c with mark := .ofNum status } else b := by
  simp [heardMark, packed]

end Packed

end Books

/-- A record of this station's own, or packed by another station, is not the sender's heard record. -/
theorem Chest.not_heard_from {c : Chest} {sender : Nat} (other : c.origin = .own ∨ c.station ≠ sender) :
    ¬ (c.origin = .heard ∧ c.station = sender) := by
  rintro ⟨heard, same⟩
  rcases other with own | station
  · simp [heard] at own
  · exact station same

/-! ### O36 -/

/-- Settles O36: a VOID, a SAMPLE and a MARK heard, by the invoice and by the record under the key. -/
theorem heardVoidSampleAndMark : Obligations.HeardVoidSampleAndMark := by
  refine ⟨fun s q k n taken => ⟨_, voidFrame_acts taken, fun idle => ?_, fun r c found live packed => ?_⟩,
    fun s q k n w taken => ⟨_, sampleFrame_acts taken, fun idle => ?_, fun r c found live packed => ?_⟩,
    fun s q k m n taken => ⟨_, markFrame_acts taken, fun idle => ?_, fun c present packed => ?_⟩⟩
  · exact ite_eq_right_iff.2 fun _ => (Books.heard_idle (w := 0) idle).1
  · rw [if_pos (Books.hasInvoice_of_some found),
      Books.heardVoid_packed packed (Books.notClosed_of_found found live)]
    refine ⟨fun heard station => if_pos ⟨heard, station⟩, fun other conflict => ?_, fun other calm => ?_⟩
    · rw [if_neg (Chest.not_heard_from other), if_pos conflict]
    · rw [if_neg (Chest.not_heard_from other), if_neg calm]
  · exact ite_eq_right_iff.2 fun _ => (Books.heard_idle (sender := 0) idle).2
  · rw [if_pos (Books.hasInvoice_of_some found),
      Books.heardSample_packed packed (Books.notClosed_of_found found live)]
    refine ⟨fun fresh light => if_pos ⟨fresh, light⟩, fun barred => if_neg ?_⟩
    rintro ⟨fresh, light⟩
    exact barred.elim (fun sampled => sampled fresh) (fun heavy => by omega)
  · rcases idle with absent | absent
    · exact if_neg (Books.hasInvoice_of_none absent)
    · rw [Books.heardMark_absent absent, ite_self]
  · obtain ⟨r, found⟩ := Option.ne_none_iff_exists'.1 present
    rw [if_pos (Books.hasInvoice_of_some found), Books.heardMark_packed packed, MarkStatus.ofNum_toNat]
    exact ⟨fun heard station => if_pos ⟨heard, station⟩, fun other => if_neg (Chest.not_heard_from other)⟩

end Sys2Proof.Machine
end


section
/-! PROOFS. CLOSE INVOICE: the checks of R150 in their order, and the CLOSE CALL that joins the queue (R150; O15). -/

namespace Sys2Proof.Machine

/-! ### The checks (R150) -/

theorem TxEntry.isCallOf_iff (n : Nat) (e : TxEntry) :
    e.isCallOf n = true ↔ e.frame.kind = 1 ∧ e.frame.invoice = n := by simp [TxEntry.isCallOf]

/-- A CLOSE CALL for the invoice is in the queue. -/
theorem Books.hasCall_iff (b : Books) (n : Nat) : b.tx.any (TxEntry.isCallOf n) = true
    ↔ ∃ e ∈ b.tx, e.frame.kind = 1 ∧ e.frame.invoice = n := by simp only [List.any_eq_true, TxEntry.isCallOf_iff]

theorem Books.hasCall_eq_false {b : Books} {n : Nat} (uncalled : ∀ e ∈ b.tx, e.frame.kind = 1 → e.frame.invoice ≠ n) :
    b.tx.any (TxEntry.isCallOf n) = false := by
  rw [Bool.eq_false_iff, Ne, b.hasCall_iff]
  rintro ⟨e, queued, call, invoice⟩
  exact uncalled e queued call invoice

namespace State

variable {s : State} {n : Nat}

theorem closeRefusal_notActive (others : ∀ r, s.books.invoice? n = some r → r.state ≠ .active) :
    s.closeRefusal n = some .notActive := by
  cases found : s.books.invoice? n with
  | none => simp [closeRefusal, found]
  | some r => simp [closeRefusal, found, others r found]

section Active
variable {r : Invoice} (found : s.books.invoice? n = some r) (active : r.state = .active)
include found active

theorem closeRefusal_partialView (short : r.view = .short) : s.closeRefusal n = some .partialView := by
  simp [closeRefusal, found, active, short]

/-- A fill in progress, then a CLOSE CALL that is already queued: either one answers BUSY (R150). -/
theorem closeRefusal_whole (whole : r.view = .whole) : s.closeRefusal n
    = if s.filling = some n ∨ s.books.tx.any (TxEntry.isCallOf n) = true then some .busy else none := by
  by_cases filling : s.filling = some n
  · simp [closeRefusal, found, active, whole, filling]
  · simp only [closeRefusal, found, active, whole, filling, ne_eq, not_true_eq_false, if_false, false_or]

end Active

end State

/-! ### The call queued (R150) -/

theorem Books.callClose_found {b : Books} {n : Nat} {r : Invoice} (found : b.invoice? n = some r) (fill : Option Nat) :
    b.callClose fill n = b.queueFrame fill (.closeCall n 1 (b.packedCount n) r.planned) := by
  simp [Books.callClose, found]

/-! ### O15 -/

theorem exec_closeInvoice (p : Params) (s : State) : exec (.closeInvoice p) s
    = .next (s.hostCommand 0x12 p noData (fun t => t.closeBody (num2 p.stated 0))) := rfl

section Admitted
variable {s : State} {p : Params} (admitted : s.admits 0x12 p) {n : Nat} (hn : n = num2 p.stated 0)
include admitted hn

theorem closeInvoice_refused {st : Status} (refused : s.closeRefusal n = some st) :
    exec (.closeInvoice p) s = .next (s.answers 0x12 p st []) := by
  have refusal : ∀ beyond, (s.take 0x12 beyond).closeRefusal n = some st := fun _ => refused
  rw [exec_closeInvoice, State.hostCommand_admits admitted, State.closeBody, ← hn, refusal]
  rfl

theorem closeInvoice_taken (passes : s.closeRefusal n = none) : exec (.closeInvoice p) s
    = .next { s with books := s.books.callClose s.filling n, port := s.answered 0x12 p .ok [] } := by
  have refusal : ∀ beyond, (s.take 0x12 beyond).closeRefusal n = none := fun _ => passes
  rw [exec_closeInvoice, State.hostCommand_admits admitted, State.closeBody, ← hn, refusal]
  rfl

end Admitted

/-- Settles O15: the first check of R150 that fails answers, and a command that passes all of them queues the call. -/
theorem closeInvoiceQueuesTheCall : Obligations.CloseInvoiceQueuesTheCall := by
  refine fun p s n admitted hn => ⟨fun others => ?_,
    fun r found active => ⟨fun short => ?_, fun whole busy => ?_, fun whole idle uncalled => ?_⟩⟩
  · exact closeInvoice_refused admitted hn (State.closeRefusal_notActive others)
  · exact closeInvoice_refused admitted hn (State.closeRefusal_partialView found active short)
  · rw [← s.books.hasCall_iff] at busy
    exact closeInvoice_refused admitted hn ((State.closeRefusal_whole found active whole).trans (if_pos busy))
  · have free : ¬ (s.filling = some n ∨ s.books.tx.any (TxEntry.isCallOf n) = true) := by
      simp [idle, Books.hasCall_eq_false uncalled]
    rw [closeInvoice_taken admitted hn ((State.closeRefusal_whole found active whole).trans (if_neg free)),
      Books.callClose_found found]

end Sys2Proof.Machine
end

section
/-! PROOFS. CLOSE CALL and CLOSED heard, the entries to CLOSING and CLOSED, and the entries of the queue that leave with them
(R30, R42, R43, R64, R65, R152, R153, R161, R162; O40). -/

namespace Sys2Proof.Machine

/-! ### The free serials surrendered (R64) -/

/-- At the entry to CLOSING the lowest free serial stays for a fill in progress, and the others are counted (R64). -/
theorem Invoice.surrender_eq (r : Invoice) (filling : Bool) : r.surrender filling = { r with
    free := if filling then r.free.take 1 else []
    surrendered := r.surrendered + (r.free.length - if filling then 1 else 0) } := by
  cases free : r.free with
  | nil => cases r; cases free; cases filling <;> rfl
  | cons x l => cases filling <;> simp [Invoice.surrender, free]

namespace Books

variable {b : Books} {n : Nat}

/-! ### Entries removed and applied (R30) -/

/-- A removal that may apply: the entries not under way leave in queue order, each CLAIM of them with an attempt as an own
claim, and one under way is marked to leave unless a mark stands (R30). -/
theorem removeEntries_apply (b : Books) (fill : Option Nat) (p : TxEntry → Bool) :
    b.removeEntries fill .apply p = (b.tx.filter (fun e => p e && !e.underWay)).foldl (applyRemoved fill) { b with
      tx := (b.tx.filter (fun e => !p e || e.underWay)).map (fun e =>
        if p e ∧ e.removal = .none then { e with removal := .apply } else e) } := by
  have kept : ∀ e : TxEntry, (!(p e && !e.underWay)) = (!p e || e.underWay) := fun e => by simp
  have marks : ∀ e : TxEntry, (p e && (e.removal = .none || Removal.apply = .discard)) = true
      ↔ p e = true ∧ e.removal = .none := fun e => by simp
  simp only [removeEntries, if_true, kept, marks]

/-! ### The entries to CLOSING and CLOSED (R42, R43) -/

theorem enterClosing_steps (b : Books) (fill : Option Nat) (n : Nat) (role : CloseRole) : b.enterClosing fill n role
    = ((b.modifyInvoice n (fun r =>
        { r with state := .closing, role := some role, phase := .none, recount := false, tallies := [] })).removeEntries
          fill .apply (fun e => (e.frame.kind = 4 ∨ e.frame.kind = 10) ∧ e.frame.invoice = n)).modifyInvoice n (fun r =>
            { r with
              free := if fill = some n then r.free.take 1 else [],
              surrendered := r.surrendered + (r.free.length - if fill = some n then 1 else 0) }) := by
  have leaves : ∀ e : TxEntry, (e.isClaimOf n || e.isCensusOf n)
      = decide ((e.frame.kind = 4 ∨ e.frame.kind = 10) ∧ e.frame.invoice = n) := fun e => by
    simp only [TxEntry.isClaimOf, TxEntry.isCensusOf, or_and_right, Bool.decide_or, Bool.decide_and]
  simp only [enterClosing, leaves, Invoice.surrender_eq, Invoice.endCensus, decide_eq_true_eq]

/-- Once it has entered CLOSING, a record of the table is CLOSING in its role (R42). -/
theorem stance_enterClosing (b : Books) (fill : Option Nat) (n : Nat) (role : CloseRole) :
    (b.enterClosing fill n role).stance n = (b.invoice? n).map (fun _ => (.closing, some role)) := by
  rw [enterClosing_steps, stance_modifyInvoice _ n n (fun _ => by rfl) (fun _ => by rfl) (fun _ => by rfl),
    stance_removeEntries, stance, b.invoice?_modifyInvoice n n (fun _ => by rfl), if_pos rfl, Option.map_map]
  rfl

theorem isOpen_eq_stance (b : Books) (n : Nat) :
    (b.invoice? n).any (fun r => r.state.isOpen) = (b.stance n).any (fun x => x.1.isOpen) := by
  cases found : b.invoice? n <;> simp [stance, found]

section Found
variable {r : Invoice} (found : b.invoice? n = some r)
include found

/-- From an open state every effect of CLOSING comes first, as a peer's (R43). -/
theorem enterClosed_of_open (isOpen : r.state.isOpen = true) (fill : Option Nat) (role : CloseRole) :
    b.enterClosed fill n role = (b.enterClosing fill n .peer).enterClosed fill n role := by
  have before : (b.invoice? n).any (fun r => r.state.isOpen) = true := by simp [found, isOpen]
  have after : ((b.enterClosing fill n .peer).invoice? n).any (fun r => r.state.isOpen) = false := by
    rw [isOpen_eq_stance, stance_enterClosing, found]
    rfl
  simp only [enterClosed, before, after, if_true, Bool.false_eq_true, if_false]

/-- From CLOSING or CLOSED: the census ends, CLAIM, CENSUS and CLOSE CALL leave, and no free serial stays (R43, R65). -/
theorem enterClosed_of_not_open (closing : r.state.isOpen = false) (fill : Option Nat) (role : CloseRole) :
    b.enterClosed fill n role = ((b.modifyInvoice n (fun r =>
      { r with state := .closed, role := some role, phase := .none, recount := false, tallies := [] })).removeEntries
        fill .apply (fun e => (e.frame.kind = 4 ∨ e.frame.kind = 10 ∨ e.frame.kind = 1) ∧ e.frame.invoice = n)).modifyInvoice
          n (fun r => { r with free := [], surrendered := r.surrendered + r.free.length }) := by
  have before : (b.invoice? n).any (fun r => r.state.isOpen) = false := by simp [found, closing]
  have leaves : ∀ e : TxEntry, (e.isClaimOf n || e.isCensusOf n || e.isCallOf n)
      = decide ((e.frame.kind = 4 ∨ e.frame.kind = 10 ∨ e.frame.kind = 1) ∧ e.frame.invoice = n) := fun e => by
    simp only [TxEntry.isClaimOf, TxEntry.isCensusOf, TxEntry.isCallOf, or_and_right, Bool.decide_or, Bool.decide_and,
      Bool.or_assoc]
  simp only [enterClosed, before, Bool.false_eq_true, if_false, leaves, Invoice.endCensus]
  rfl

end Found

/-! ### The own call yielded (R152, R161) -/

theorem yieldCall_uncalled (uncalled : ∀ e ∈ b.tx, e.frame.kind = 1 → e.frame.invoice ≠ n) (v : Nat) :
    b.yieldCall n v = b := by simp [yieldCall, hasCall_eq_false uncalled]

theorem yieldCall_queued (queued : ∃ e ∈ b.tx, e.frame.kind = 1 ∧ e.frame.invoice = n) (v : Nat) :
    b.yieldCall n v = (b.removeEntries none .apply
      (fun e => e.frame.kind = 1 ∧ e.frame.invoice = n)).raiseNotice .closeYielded (some n) none (some v) := by
  have call : TxEntry.isCallOf n = fun e => decide (e.frame.kind = 1 ∧ e.frame.invoice = n) :=
    funext fun e => (Bool.decide_and _ _).symm
  rw [yieldCall, if_pos ((b.hasCall_iff n).2 queued), call]

/-! ### CLOSE CALL heard (R152, R153) -/

section Found
variable {r : Invoice} (found : b.invoice? n = some r)
include found

theorem heardCall_open (isOpen : r.state = .census ∨ r.state = .active ∨ r.state = .stale) (fill : Option Nat)
    (packed : Nat) : b.heardCall fill n packed
      = (((b.yieldCall n 1).enterClosing fill n .peer).queueTally n 2 (if fill = some n then 1 else 0)).raiseNotice
          .closeCalled (some n) none (some packed) := by
  rcases isOpen with state | state | state <;> simp only [heardCall, found, state, inProgressOf]

theorem heardCall_closing (closing : r.state = .closing) (fill : Option Nat) (packed : Nat) :
    b.heardCall fill n packed = b.queueTally n 2 (if fill = some n then 1 else 0) := by
  simp only [heardCall, found, closing, inProgressOf]

theorem heardCall_closed (closed : r.state = .closed) (fill : Option Nat) (packed : Nat) :
    b.heardCall fill n packed = b.queueTally n 2 0 := by simp only [heardCall, found, closed]

/-! ### CLOSED heard (R161, R162) -/

theorem heardClosed_closed (closed : r.state = .closed) (fill : Option Nat) (status packed missing net : Nat) :
    b.heardClosed fill n status packed missing net = b := by simp [heardClosed, found, closed]

/-- CLOSED heard short of CLOSED: a closer in CLOSING ends its round and says last that it has yielded, any other record gives
up a queued call; between the two the record is CLOSED, compared and told of (R161, R162; log 36). -/
theorem heardClosed_eq (unclosed : r.state ≠ .closed) (fill : Option Nat) (status packed missing net : Nat) {b₁ b₂ : Books}
    (hb₁ : b₁ = (if r.state = .closing ∧ r.role = some .closer then b.dropRound n
      else b.yieldCall n 2).enterClosed fill n .peer)
    (hb₂ : b₂ = b₁.compareClosed r status packed missing net) : b.heardClosed fill n status packed missing net
      = if r.state = .closing ∧ r.role = some .closer then b₂.raiseNotice .closeYielded (some n) none (some 2)
        else b₂ := by
  subst hb₁ hb₂
  by_cases closer : r.state = .closing ∧ r.role = some .closer <;> simp [heardClosed, found, unclosed, closer]

end Found

/-- INVOICE_CLOSED carries the status alone when the three figures agree with the records here (R161). -/
theorem compareClosed_eq (b : Books) {r : Invoice} (number : r.number = n) (status packed missing net : Nat) :
    b.compareClosed r status packed missing net = b.raiseNotice .invoiceClosed (some n) none
      (some (if packed = b.packedCount n ∧ missing = (b.missing n r.planned).length
          ∧ net = ((b.packed n).map (·.net)).sum then status else status + 8)) := by
  have agrees : b.differs r packed missing net = true ↔ ¬ (packed = b.packedCount n
      ∧ missing = (b.missing n r.planned).length ∧ net = ((b.packed n).map (·.net)).sum) := by
    simp only [differs, number, Bool.or_eq_true, decide_eq_true_eq]
    tauto
  simp only [compareClosed, number, agrees, ite_not]

end Books

/-! ### O40 -/

theorem closeCallFrame_acts {s : State} {q : Sender} {round m p : Byte} {n : BitVec 16}
    (taken : s.takes q (.closeCall n.toNat round.toNat m.toNat p.toNat)) :
    exec (.closeCallFrame q n round m p) s = .next (s.took q ((if s.books.hasInvoice n.toNat
      then s.books.heardCall s.filling n.toNat m.toNat else s.books).setRepeat q.number.toNat none)) :=
  congrArg Host.Outcome.next (State.receive_filtered taken rfl (fun _ => rfl) _)

theorem closedFrame_acts {s : State} {q : Sender} {st m x : Byte} {n : BitVec 16} {v : BitVec 24}
    (taken : s.takes q (.closed n.toNat st.toNat m.toNat x.toNat v.toNat)) :
    exec (.closedFrame q n st m x v) s = .next (s.took q ((if s.books.hasInvoice n.toNat
      then s.books.heardClosed s.filling n.toNat st.toNat m.toNat x.toNat v.toNat
      else s.books).setRepeat q.number.toNat none)) :=
  congrArg Host.Outcome.next (State.receive_filtered taken rfl (fun _ => rfl) _)

/-- Settles O40: the two frames heard by the record's state and role, and the operations that they ask for. -/
theorem heardCloseCallAndClosed : Obligations.HeardCloseCallAndClosed := by
  refine ⟨fun s q round m p n taken => ⟨_, closeCallFrame_acts taken,
      fun absent => if_neg (Books.hasInvoice_of_none absent), fun r found => ?_⟩,
    fun s q st m x n v taken => ⟨_, closedFrame_acts taken,
      fun absent => if_neg (Books.hasInvoice_of_none absent), fun r found closed => ?_,
      fun r b₁ b₂ found unclosed hb₁ hb₂ => ?_⟩,
    fun b n v => ⟨fun uncalled => Books.yieldCall_uncalled uncalled v, fun queued => Books.yieldCall_queued queued v⟩,
    fun b fill n role => ⟨b.enterClosing_steps fill n role, fun r found => ⟨fun isOpen => ?_, fun closing => ?_⟩⟩,
    fun b fill p => ⟨b.removeEntries_discard fill p, (b.removeEntries_apply fill p).trans ?_⟩⟩
  · rw [if_pos (Books.hasInvoice_of_some found)]
    exact ⟨fun isOpen => Books.heardCall_open found isOpen _ _, fun closing => Books.heardCall_closing found closing _ _,
      fun closed => Books.heardCall_closed found closed _ _⟩
  · rw [if_pos (Books.hasInvoice_of_some found), Books.heardClosed_closed found closed]
  · obtain ⟨-, number⟩ := Books.invoice?_some found
    rw [if_pos (Books.hasInvoice_of_some found)]
    exact Books.heardClosed_eq found unclosed _ _ _ _ _ hb₁ (hb₂.trans (b₁.compareClosed_eq number _ _ _ _).symm)
  · exact Books.enterClosed_of_open found (r.state.isOpen_iff.2 isOpen) fill role
  · exact Books.enterClosed_of_not_open found (r.state.not_isOpen_iff.2 closing) fill role
  · congr 1
    funext c e
    unfold Books.applyRemoved
    cases e.frame <;> rfl

end Sys2Proof.Machine
end

section
/-! PROOFS. The fault list and the notice queue: raises, clearing conditions, and the NOTICE output (R165, R166, R178, R179;
O51). -/

namespace Sys2Proof.Machine

/-! ### Codes and causes (R166) -/

theorem FaultCode.isEvent_iff (c : FaultCode) : c.isEvent = true ↔ c ∈ ([.lineDrive, .lineDispute, .viewLost,
    .planMismatch, .txQueueFull, .markLate, .binOverdraw, .zeroDrift, .chestOrphan] : List FaultCode) := by
  cases c <;> simp [FaultCode.isEvent]

/-- The cause of an event fault is cleared from the start (R165). -/
theorem FaultCode.raisedCause_eq (c : FaultCode) : c.raisedCause = if c ∈ ([.lineDrive, .lineDispute, .viewLost,
    .planMismatch, .txQueueFull, .markLate, .binOverdraw, .zeroDrift, .chestOrphan] : List FaultCode)
    then .cleared else .present := by
  simp only [FaultCode.raisedCause, FaultCode.isEvent_iff]

/-- The entry that has a key in an ascending list gives way to the entry put under it. -/
theorem putBy_replace {α : Type} {key : α → Nat} {x y : α} {pre : List α} (post : List α) (same : key x = key y)
    (below : ∀ z ∈ pre, key z < key y) : putBy key x (pre ++ y :: post) = pre ++ x :: post := by
  induction pre with
  | nil => simp [putBy, same]
  | cons z pre ih =>
    have first : key z < key y := below z List.mem_cons_self
    rw [List.cons_append, putBy, if_neg (by omega), if_neg (by omega),
      ih fun w hw => below w (List.mem_cons_of_mem z hw)]
    rfl

namespace Books

variable {b : Books} {c : FaultCode} {e : FaultEntry}

/-! ### The entry of a code (R165) -/

theorem fault?_absent (absent : ∀ e ∈ b.faults, e.code ≠ c) : b.fault? c = none :=
  List.find?_eq_none.2 fun e he => by simpa using absent e he

theorem fault?_of_unique (member : e ∈ b.faults) (alone : ∀ d ∈ b.faults, d.code = e.code → d = e) :
    b.fault? e.code = some e := by
  cases found : b.fault? e.code with
  | none => exact absurd (List.find?_eq_none.1 found e member) (by simp)
  | some d =>
    have same : d.code = e.code := by simpa using List.find?_some found
    rw [alone d (List.mem_of_find?_eq_some found) same]

/-- Entries of other codes keep their causes. -/
theorem map_cleared_of_apart {l : List FaultEntry} (apart : ∀ d ∈ l, d.code ≠ c) :
    l.map (fun d => if d.code = c then { d with cause := .cleared } else d) = l :=
  (List.map_congr_left fun d hd => if_neg (apart d hd)).trans (List.map_id' l)

/-- The clearing condition of a fault with no entry has no effect (R166). -/
theorem clearCause_absent (absent : ∀ e ∈ b.faults, e.code ≠ c) : b.clearCause c = b := by
  rw [clearCause, map_cleared_of_apart absent]

/-- A first raise makes an entry, in its place in the list (R165). -/
theorem raiseFault_absent (absent : ∀ e ∈ b.faults, e.code ≠ c) : b.raiseFault c = { b with
    faults := putBy (fun e => e.code.num) ⟨c, 1, c.raisedCause, b.time, b.time⟩ b.faults } := by
  rw [raiseFault, fault?_absent absent]
  rfl

section Listed
variable {pre post : List FaultEntry} (listed : b.faults = pre ++ e :: post)
  (ascending : b.faults.Pairwise (fun d e => d.code.num < e.code.num))
include listed ascending

theorem listed_apart : (∀ d ∈ pre, d.code.num < e.code.num) ∧ ∀ d ∈ post, e.code.num < d.code.num := by
  rw [listed, List.pairwise_append, List.pairwise_cons] at ascending
  obtain ⟨-, ⟨above, -⟩, below⟩ := ascending
  exact ⟨fun d hd => below d hd e List.mem_cons_self, above⟩

theorem fault?_listed : b.fault? e.code = some e := by
  obtain ⟨below, above⟩ := listed_apart listed ascending
  refine fault?_of_unique (by simp [listed]) fun d hd same => ?_
  rw [listed, List.mem_append, List.mem_cons] at hd
  rcases hd with hd | rfl | hd
  · exact absurd (below d hd) (by rw [same]; omega)
  · rfl
  · exact absurd (above d hd) (by rw [same]; omega)

/-- A raise of a fault that has an entry counts it (R165). -/
theorem raiseFault_listed : b.raiseFault e.code = { b with faults := pre ++
    { e with count := min 255 (e.count + 1), latest := b.time, cause := e.code.raisedCause } :: post } := by
  obtain ⟨below, -⟩ := listed_apart listed ascending
  rw [raiseFault, fault?_listed listed ascending, listed, raisedEntry,
    putBy_replace (key := fun e : FaultEntry => e.code.num) post (by rfl) below]

/-- The clearing condition of a fault reaches the cause of its entry alone (R166). -/
theorem clearCause_listed : b.clearCause e.code = { b with faults := pre ++ { e with cause := .cleared } :: post } := by
  obtain ⟨below, above⟩ := listed_apart listed ascending
  rw [clearCause, listed, List.map_append, List.map_cons, if_pos rfl,
    map_cleared_of_apart fun d hd same => absurd (below d hd) (by rw [same]; omega),
    map_cleared_of_apart fun d hd same => absurd (above d hd) (by rw [same]; omega)]

end Listed

/-! ### The notice queue (R178) -/

theorem raiseNotice_joins (room : b.notices.length < 32) (k : NoticeKind) (i n v : Option Nat) :
    b.raiseNotice k i n v = { b with notices := b.notices ++ [⟨k, b.time, i, n, v⟩] } := if_pos room

theorem raiseNotice_dropped (full : 32 ≤ b.notices.length) (k : NoticeKind) (i n v : Option Nat) :
    b.raiseNotice k i n v = b.raiseFault .noticeOverflow := if_neg (by omega)

end Books

theorem State.noticeOut_iff (s : State) : s.noticeOut = true ↔ s.books.notices ≠ [] ∨ s.books.faults ≠ [] := by
  simp [State.noticeOut]

/-! ### O51 -/

/-- Settles O51: a raise by whether the code has an entry, and the effect of a clearing condition on it. -/
theorem raisesReachTheListAndTheQueue : Obligations.RaisesReachTheListAndTheQueue := by
  simp only [Obligations.RaisesReachTheListAndTheQueue, ← FaultCode.raisedCause_eq]
  refine ⟨fun b c absent ascending => ?_, fun b pre post e listed ascending => ?_, fun b c => Books.clearCause_absent,
    fun b k i n v => ⟨fun room => Books.raiseNotice_joins room k i n v, fun full => Books.raiseNotice_dropped full k i n v⟩,
    State.noticeOut_iff⟩
  · refine ⟨_, Books.raiseFault_absent absent, putBy_pairwise (key := fun e : FaultEntry => e.code.num) ascending, fun e => ?_⟩
    have fresh (member : e ∈ b.faults) : e.code.num ≠ c.num := fun same => absent e member (Books.num_injective same)
    rw [mem_putBy_iff ascending, or_comm]
    exact or_congr_left (and_iff_left_of_imp fresh)
  · refine ⟨Books.raiseFault_listed listed ascending, Books.clearCause_listed listed ascending, fun cleared => ?_⟩
    rw [Books.clearCause_listed listed ascending, ← cleared, ← listed]

end Sys2Proof.Machine
end

section
/-! PROOFS. READ FAULT and ACK FAULT: which entry answers, and what an acknowledgement removes (R167, R168, R170; O28, O29). -/

namespace Sys2Proof.Machine

/-! ### READ FAULT (R167) -/

theorem exec_readFault (p : Params) (s : State) : exec (.readFault p) s
    = .next (s.hostCommand 0x45 p noData (fun t => t.readFaultBody (byteAt p.stated 0))) := rfl

/-- READ FAULT of one parameter byte is taken in every station state (R167, R174). -/
theorem readFault_admitted {s : State} {p : Params} (free : s.portFree) (stated : p.stated.length = 1) :
    s.admits 0x45 p := by
  refine ⟨free, ?_⟩
  rw [stated]
  cases s.books.station <;> rfl

theorem Cause.num_eq (c : Cause) : c.num = if c = .present then 1 else 2 := by cases c <;> rfl

section
variable {s : State} {k : Nat}

/-- The entry of the lowest code at or above the from code answers. -/
theorem readFaultBody_entry {e : FaultEntry} (member : e ∈ s.books.faults) (reached : k ≤ e.code.num)
    (least : ∀ d ∈ s.books.faults, k ≤ d.code.num → e.code.num < d.code.num ∨ d = e) :
    s.readFaultBody k = s.reply .ok (e.data s.books.faults.length) := by
  have found : s.books.faultFrom k = some e :=
    lowestBy_of_least (List.mem_filter.2 ⟨member, decide_eq_true reached⟩) fun d hd => by
      obtain ⟨listed, above⟩ := List.mem_filter.1 hd
      exact least d listed (of_decide_eq_true above)
  rw [State.readFaultBody, found]

theorem readFaultBody_none (below : ∀ e ∈ s.books.faults, e.code.num < k) :
    s.readFaultBody k = s.replySpending (noFault s.books.faults.length s.spare) := by
  have none : s.books.faultFrom k = none :=
    lowestBy_eq_none.2 (List.filter_eq_nil_iff.2 fun e he => by simpa using below e he)
  rw [State.readFaultBody, none]

end

/-- Settles O28: the lowest entry at or above the from code, and the answer where there is none. -/
theorem readFaultGivesTheLowestCode : Obligations.ReadFaultGivesTheLowestCode := by
  rintro p s k free stated rfl
  rw [exec_readFault, State.hostCommand_admits (readFault_admitted free stated)]
  refine ⟨fun e member reached least => ?_, fun below => ⟨freeBytes s.spare 8, freeBytes_length _ _, ?_⟩⟩
  · rw [readFaultBody_entry (s := s.take _ _) member reached least, State.reply_take, FaultEntry.data, Cause.num_eq]
    rfl
  · rw [readFaultBody_none (s := s.take _ _) below, State.replySpending_take]
    rfl

/-! ### ACK FAULT (R168, R170) -/

theorem exec_ackFault (p : Params) (s : State) : exec (.ackFault p) s
    = .next (s.hostCommand 0x46 p stationData (fun t => t.ackBody (byteAt p.stated 0))) := rfl

theorem FaultCode.ofNum_num (c : FaultCode) : FaultCode.ofNum c.num = some c := by cases c <;> rfl

theorem FaultCode.num_of_ofNum {k : Nat} {c : FaultCode} (named : FaultCode.ofNum k = some c) : c.num = k := by
  simpa using List.find?_some named

theorem FaultCode.halts_iff (c : FaultCode) : c.halts = true ↔ 3 ≤ c.num ∧ c.num ≤ 5 := by
  cases c <;> simp [FaultCode.halts, FaultCode.num]

theorem Books.dropFault_eq (b : Books) (c : FaultCode) :
    b.dropFault c = { b with faults := b.faults.filter (fun d => d.code.num ≠ c.num) } := by
  have same (d : FaultEntry) : d.code ≠ c ↔ d.code.num ≠ c.num :=
    not_congr ⟨congrArg FaultCode.num, Books.num_injective⟩
  simp only [Books.dropFault, same]

/-- An entry of codes 3 to 5 stands once the entry of `k` is gone. -/
theorem Books.anyHalting_without (b : Books) (k : Nat) :
    ({ b with faults := b.faults.filter (fun d => d.code.num ≠ k) } : Books).anyHalting = true
      ↔ ∃ d ∈ b.faults, d.code.num ≠ k ∧ 3 ≤ d.code.num ∧ d.code.num ≤ 5 := by
  simp only [Books.anyHalting, List.any_eq_true, List.mem_filter, decide_eq_true_eq, FaultCode.halts_iff, and_assoc]

section
variable {s : State} {k : Nat}

theorem ackBody_absent (absent : ∀ e ∈ s.books.faults, e.code.num ≠ k) : s.ackBody k = s.replyStation .notPresent := by
  have none : (FaultCode.ofNum k).bind s.books.fault? = none := by
    cases named : FaultCode.ofNum k with
    | none => rfl
    | some c => exact Books.fault?_absent fun e he same => absent e he (by rw [same, FaultCode.num_of_ofNum named])
  rw [State.ackBody, none]

section
variable {e : FaultEntry} (member : e ∈ s.books.faults) (alone : ∀ d ∈ s.books.faults, d.code.num = e.code.num → d = e)
include member alone

theorem acknowledged : (FaultCode.ofNum e.code.num).bind s.books.fault? = some e := by
  rw [FaultCode.ofNum_num]
  exact Books.fault?_of_unique member fun d hd same => alone d hd (congrArg FaultCode.num same)

theorem ackBody_present (present : e.cause = .present) : s.ackBody e.code.num = s.replyStation .causePresent := by
  rw [State.ackBody, acknowledged member alone]
  dsimp only
  rw [present]

/-- A cleared entry goes; the station returns where it was the last of codes 3 to 5. -/
theorem ackBody_cleared (cleared : e.cause = .cleared) : s.ackBody e.code.num
    = (if e.code.halts then (s.onBooks (·.dropFault e.code)).returnOnline
       else s.onBooks (·.dropFault e.code)).replyStation .ok := by
  rw [State.ackBody, acknowledged member alone]
  dsimp only
  rw [cleared]

end

theorem returnOnline_returns (halted : s.books.station = .halt) (clear : s.books.anyHalting = false) :
    s.returnOnline = s.setStation .online := if_pos (by simp [halted, clear])

theorem returnOnline_stays (stays : s.books.station ≠ .halt ∨ s.books.anyHalting = true) : s.returnOnline = s :=
  if_neg (by rcases stays with other | stands <;> simp [*])

end

/-- Settles O29: an acknowledgement by the entry, its cause, and the severe entries that remain. -/
theorem ackFaultRemovesAClearedEntry : Obligations.AckFaultRemovesAClearedEntry := by
  rintro p s _ admitted rfl
  rw [exec_ackFault, State.hostCommand_admits admitted]
  refine ⟨fun absent => ?_, fun e member code alone => ?_⟩
  · rw [ackBody_absent (s := s.take _ _) absent]
    rfl
  rw [← code] at alone ⊢
  refine ⟨fun present => ?_, fun cleared => ?_⟩
  · rw [ackBody_present (s := s.take _ _) member alone present]
    rfl
  rw [ackBody_cleared (s := s.take _ _) member alone cleared]
  simp only [Books.dropFault_eq]
  refine ⟨fun halted low high last => ?_, fun stays => ?_⟩
  · have clear := Bool.eq_false_iff.2 fun stands => by
      obtain ⟨d, hd, other, range⟩ := (s.books.anyHalting_without e.code.num).1 stands
      have := last d hd other
      omega
    rw [if_pos ((FaultCode.halts_iff _).2 ⟨low, high⟩), returnOnline_returns (by exact halted) (by exact clear)]
    rfl
  · split
    · next halts =>
      obtain ⟨low, high⟩ := (FaultCode.halts_iff _).1 halts
      have stands (range : e.code.num < 3 ∨ 5 < e.code.num ∨ ∃ d ∈ s.books.faults,
          d.code.num ≠ e.code.num ∧ 3 ≤ d.code.num ∧ d.code.num ≤ 5) :=
        (s.books.anyHalting_without e.code.num).2 ((range.resolve_left (by omega)).resolve_left (by omega))
      rw [returnOnline_stays (by exact stays.imp_right stands)]
      rfl
    · rfl

end Sys2Proof.Machine
end

section
/-! PROOFS. What the entry to HALT keeps: the codes of the fault list, the port, and the mark of SCALE_SATURATED (R112, R117,
R135, R165, R169; O56). -/

namespace Sys2Proof.Machine

/-! ### The codes that stand (R165, R166) -/

namespace Books

/-- Every code with an entry in the list keeps one; its entry may be counted or cleared. -/
def Retains (a b : Books) : Prop :=
  ∀ c, a.faults.any (fun e => e.code = c) = true → b.faults.any (fun e => e.code = c) = true

variable {a b : Books}

theorem Retains.refl (b : Books) : b.Retains b := fun _ => id

theorem Retains.ite {p : Prop} [Decidable p] {b' : Books} (h : a.Retains b) (k : a.Retains b') :
    a.Retains (if p then b else b') := by split <;> assumption

/-- A change that leaves the fault list. -/
theorem Retains.of_faults {d : Books} (h : a.Retains b) (same : d.faults = b.faults) : a.Retains d :=
  fun c stands => by rw [same]; exact h c stands

theorem Retains.raiseFault (h : a.Retains b) (c : FaultCode) : a.Retains (b.raiseFault c) := by
  intro d stands
  rw [any_raiseFault b c (fun x => x = d), h d stands, Bool.or_true]

theorem Retains.clearCause (h : a.Retains b) (c : FaultCode) : a.Retains (b.clearCause c) := by
  intro d stands
  have code (e : FaultEntry) : (if e.code = c then { e with cause := .cleared } else e).code = e.code := by
    split <;> rfl
  simpa only [Books.clearCause, List.any_map, Function.comp_def, code] using h d stands

theorem Retains.raiseNotice (h : a.Retains b) (k : NoticeKind) (i s v : Option Nat) :
    a.Retains (b.raiseNotice k i s v) := .ite (h.of_faults rfl) (h.raiseFault _)

theorem Retains.dropReservation (h : a.Retains b) : a.Retains b.dropReservation :=
  have freed : a.Retains { b with reservation := none } := h.of_faults rfl
  .ite (freed.clearCause _) freed

theorem Retains.setBin (h : a.Retains b) (n : Nat) (r : Bin) : a.Retains (b.setBin n r) := .ite h (h.of_faults rfl)

theorem Retains.lowerBin (h : a.Retains b) (n d : Nat) : a.Retains (b.lowerBin n d) :=
  .ite ((h.setBin _ _).raiseFault _) (h.setBin _ _)

theorem Retains.enterLow (h : a.Retains b) (n : Nat) : a.Retains (b.enterLow n) :=
  .ite ((h.setBin _ _).raiseNotice _ _ _ _) h

theorem Retains.draw (h : a.Retains b) (d : Draw) : a.Retains (b.draw d) := by
  unfold Books.draw
  split
  · exact h
  · split
    · exact h
    · exact h
    · exact (h.lowerBin _ _).enterLow _
    · exact h.lowerBin _ _
    · exact h.lowerBin _ _

theorem Retains.drawAll (h : a.Retains b) (ds : List Draw) : a.Retains (b.drawAll ds) := by
  induction ds generalizing b with
  | nil => exact h
  | cons d ds ih => exact ih (h.draw d)

/-- A frame of a kind that opens no window joins, or is dropped with TX_QUEUE_FULL and applied to the bins (R23, R24). -/
theorem Retains.queueFrame (h : a.Retains b) (fill : Option Nat) {f : Frame} (kind : f.kind ∈ [2, 3, 6, 8]) :
    a.Retains (b.queueFrame fill f) := by
  cases room : b.hasRoom f with
  | true =>
    rw [queueFrame_of_room room]
    exact h.of_faults rfl
  | false =>
    rw [queueFrame_of_full room]
    have full := h.raiseFault .txQueueFull
    cases f with
    | chest n r => exact full.drawAll r.draws
    | closed | tally | mark => exact full
    | closeCall | claim | void | sample | bin | census => simp [Frame.kind] at kind

theorem Retains.removeEntries (h : a.Retains b) (fill : Option Nat) (how : Removal) (p : TxEntry → Bool) :
    a.Retains (b.removeEntries fill how p) := h.of_faults (by rw [removeEntries_eq])

theorem Retains.enterClosed (h : a.Retains b) (fill : Option Nat) (n : Nat) (role : CloseRole) :
    a.Retains (b.enterClosed fill n role) := by
  have closing : a.Retains (b.enterClosing fill n .peer) := h.of_faults (by rw [enterClosing_eq])
  have entered := Retains.ite (p := (b.invoice? n).any (fun r => r.state.isOpen) = true) closing h
  exact Retains.of_faults (Retains.removeEntries (entered.of_faults (d := Books.modifyInvoice _ n _) rfl) _ _ _) rfl

/-! ### A chest that ends without a serial, and the end of a mark (R117, R133, R154) -/

theorem Retains.completeRound (h : a.Retains b) (n : Nat) : a.Retains (b.completeRound n) := by
  unfold Books.completeRound
  split
  · next r d _ _ =>
    have filed : a.Retains { b with sheets := putBy (fun l => l.invoice) (b.compileSheet r d) b.sheets } :=
      h.of_faults rfl
    have told := fun f (kind : Frame.kind f ∈ [2, 3, 6, 8]) => (filed.queueFrame none kind).enterClosed none n .closer
    exact Retains.of_faults ((told _ (by simp [Frame.kind])).raiseNotice _ _ _ _) rfl
  · exact h

theorem Retains.recordAnswer (h : a.Retains b) (n : Nat) (x : Answer) : a.Retains (b.recordAnswer n x) := by
  have recorded : a.Retains (b.modifyRound n (fun d => d.record x)) := h.of_faults rfl
  unfold Books.recordAnswer Books.earlyCompletion
  split
  · exact recorded
  · split
    · exact .ite (recorded.completeRound n) recorded
    · exact recorded
    · exact recorded

theorem Retains.queueTally (h : a.Retains b) (n answerTo inProgress : Nat) :
    a.Retains (b.queueTally n answerTo inProgress) := by
  unfold Books.queueTally
  split
  · exact h
  · exact h.queueFrame none (by simp [Frame.kind])

theorem Retains.fillEnded (h : a.Retains b) (n : Nat) : a.Retains (b.fillEnded n) := by
  unfold Books.fillEnded
  split
  · exact h
  · refine .ite ?_ h
    split
    · exact h.queueTally n 2 0
    · exact h.recordAnswer n _
    · exact h

theorem Retains.chestLost (h : a.Retains b) (f : Fill) : a.Retains (b.chestLost f) := by
  unfold Books.chestLost
  split
  · exact Retains.fillEnded (h.of_faults (d := b.surrenderKept _) rfl) _
  · exact h

theorem Retains.markDone (h : a.Retains b) (n serial : Nat) (defect : Bool) :
    a.Retains (b.markDone n serial defect) := by
  unfold Books.markDone
  dsimp only
  split
  · exact ((h.of_faults (d := b.putChest _) rfl).queueFrame none (by simp [Frame.kind])).raiseNotice _ _ _ _
  · exact h.raiseNotice _ _ _ _

end Books

/-! ### What the lane's actions leave as it was (R123, R135, R169) -/

/-- The port and the mark of SCALE_SATURATED stand, and every code keeps its entry. -/
structure State.Stands (s t : State) : Prop where
  port : t.port = s.port
  raised : t.weigh.saturationRaised = s.weigh.saturationRaised
  codes : s.books.Retains t.books

namespace State

variable {s t u : State}

theorem Stands.refl (s : State) : s.Stands s := ⟨rfl, rfl, .refl _⟩

theorem Stands.ite {p : Prop} [Decidable p] (h : s.Stands t) (k : s.Stands u) : s.Stands (if p then t else u) := by
  split <;> assumption

/-- A change outside the tables, the port and the Weigh Channel. -/
theorem Stands.same (h : s.Stands t) (port : u.port = t.port) (weigh : u.weigh = t.weigh) (books : u.books = t.books) :
    s.Stands u := ⟨port.trans h.port, by rw [weigh, h.raised], h.codes.of_faults (by rw [books])⟩

theorem Stands.onBooks (h : s.Stands t) {f : Books → Books} (codes : s.books.Retains (f t.books)) :
    s.Stands (t.onBooks f) := ⟨h.port, h.raised, codes⟩

theorem Stands.withdrawLane (h : s.Stands t) : s.Stands t.withdrawLane := .ite ⟨h.port, h.raised, h.codes⟩ h

theorem Stands.askSettle (h : s.Stands t) (who : Requester) : s.Stands (t.askSettle who) :=
  .ite h ⟨h.port, h.raised, h.codes⟩

theorem Stands.enterClear (h : s.Stands t) : s.Stands t.enterClear :=
  .ite (h.same rfl rfl rfl) (.ite (h.same rfl rfl rfl) (Stands.askSettle (t := t.toStep .clear) (h.same rfl rfl rfl) _))

theorem Stands.enterReject (h : s.Stands t) (reason : RejectReason) : s.Stands (t.enterReject reason) := by
  have rejecting : s.Stands ((t.withdrawLane.toStep .reject).modifyFill (fun f => { f with reason := some reason })) :=
    h.withdrawLane.same rfl rfl rfl
  unfold State.enterReject
  dsimp only
  split
  · exact rejecting
  · next f _ =>
    have told := rejecting.onBooks (f := (·.raiseNotice _ _ _ _))
      (rejecting.codes.raiseNotice .chestRejected (some f.invoice) none (some reason.num))
    have reported := Stands.ite (p := f.drawn = true)
      (told.onBooks (f := (·.queueFrame none (.chest f.invoice ⟨0, 0, 0, 0, 0, f.draws⟩)))
        (told.codes.queueFrame none (by simp [Frame.kind]))) told
    exact Stands.same (reported.onBooks (f := fun b => b.dropReservation.chestLost f)
      (reported.codes.dropReservation.chestLost f)) rfl rfl rfl

theorem Stands.cutFill (h : s.Stands t) : s.Stands t.cutFill :=
  Stands.same (Stands.withdrawLane (t := t.closeGate) (h.same rfl rfl rfl)) rfl rfl rfl

theorem Stands.endUndrawn (h : s.Stands t) : s.Stands t.endUndrawn := by
  unfold State.endUndrawn
  split
  · exact h
  · exact h.onBooks (f := fun b => b.dropReservation.chestLost _) (h.codes.dropReservation.chestLost _)

theorem Stands.abortFill (h : s.Stands t) (reason : RejectReason) : s.Stands (t.abortFill reason) := by
  have ended (k : FillStep) : s.Stands (t.cutFill.toStep k).endUndrawn := Stands.endUndrawn (h.cutFill.same rfl rfl rfl)
  exact .ite (h.cutFill.enterReject reason) (.ite ((ended .idle).same rfl rfl rfl) (ended .clear).enterClear)

theorem Stands.haltFill (h : s.Stands t) : s.Stands t.haltFill := by
  unfold State.haltFill
  split
  iterate 6 exact h.abortFill _
  · exact .ite h (h.withdrawLane.same rfl rfl rfl)
  all_goals exact h

theorem Stands.haltMark (h : s.Stands t) : s.Stands t.haltMark := by
  unfold State.haltMark
  split
  · exact h
  · next j _ =>
    have done : s.Stands ((t.setMarker t.marker.cutShift.stop).onBooks
        (·.markDone j.invoice j.serial (j.defect || j.position ≤ j.markLength))) :=
      ⟨h.port, h.raised, h.codes.markDone _ _ _⟩
    unfold State.endMark
    dsimp only
    split
    · exact .ite done.enterClear done
    · exact done

theorem stands_enterHalt (s : State) : s.Stands s.enterHalt := by
  have halted : s.Stands (s.setStation .halt) := ⟨rfl, rfl, (Books.Retains.refl s.books).of_faults rfl⟩
  have lane := halted.haltFill.haltMark
  exact (lane.onBooks (f := (·.removeClaims _)) (lane.codes.removeEntries _ _ _)).withdrawLane

end State

end Sys2Proof.Machine
end

section
/-! PROOFS. The entry to HALT by the step of the lane, and going ONLINE with a sample fault that stands (R31, R91, R123, R135,
R169, R177; O56). -/

namespace Sys2Proof.Machine

namespace State

variable {s : State}

/-! ### The Fill Sequencer at the entry to HALT, by its step (R123) -/

theorem haltFill_filling (filling : s.filler.step.inFill = true) : s.haltFill = s.abortFill .halted := by
  unfold haltFill
  split
  iterate 6 rfl
  all_goals next step => rw [step] at filling; cases filling

theorem haltFill_clear (clearing : s.filler.step = .clear) (low : s.pins.chest = false) :
    s.haltFill = s.withdrawLane.goIdle := by
  unfold haltFill
  rw [clearing]
  exact if_neg (by simp [low])

theorem haltFill_rest (resting : s.filler.step.inFill = false) (stays : s.filler.step ≠ .clear ∨ s.pins.chest = true) :
    s.haltFill = s := by
  unfold haltFill
  split
  iterate 6 next step => rw [step] at resting; cases resting
  · next clearing => exact if_pos (stays.resolve_left (not_not.2 clearing))
  all_goals rfl

section Filling
variable {f : Fill} (fill : s.filler.fill = some f)
include fill

/-- A chest that has drawn is rejected with HALTED (R112, R123). -/
theorem haltFill_drawn (filling : s.filler.step.inFill = true) (drawn : ∃ x ∈ f.comps, x.opened = true) :
    s.haltFill = s.cutFill.enterReject .halted := by
  rw [haltFill_filling filling, abortFill_drawn fill (f.drawn_iff.2 drawn)]

theorem haltFill_armed (armed : s.filler.step = .armed) (shut : ∀ x ∈ f.comps, x.opened = false) :
    s.haltFill = { s with
      books := s.books.dropReservation.chestLost f,
      weigh := s.withdrawLane.weigh,
      filler := { s.filler with step := .idle, fill := none, gate := .closed, flow := none, rejectTimer := 0 } } := by
  rw [haltFill_filling (by rw [armed]; rfl), abortFill_armed fill (by simpa [Fill.drawn] using shut) armed]

theorem haltFill_undrawn (filling : s.filler.step.inFill = true) (begun : s.filler.step ≠ .armed)
    (shut : ∀ x ∈ f.comps, x.opened = false) :
    s.haltFill = (s.cutFill.setBooks (s.books.dropReservation.chestLost f)).enterClear := by
  rw [haltFill_filling filling, abortFill_undrawn fill (by simpa [Fill.drawn] using shut) begun]

end Filling
end State

/-! ### The gate and the step after the entry to HALT (R101, R123) -/

/-- The gate is closed, and the lane rests, rejects or clears. -/
def Filler.Rests (f : Filler) : Prop := f.gate = .closed ∧ (f.step = .idle ∨ f.step = .reject ∨ f.step = .clear)

theorem Filler.Rests.inFill {f : Filler} (rests : f.Rests) : f.step.inFill = false := by
  obtain ⟨-, step | step | step⟩ := rests <;> rw [step] <;> rfl

theorem Filler.Rests.not_mark {f : Filler} (rests : f.Rests) : f.step ≠ .mark := by
  obtain ⟨-, step | step | step⟩ := rests <;> simp [step]

namespace State

variable {s : State}

theorem enterClear_rests (s : State) : s.enterClear.filler.Rests := by
  unfold enterClear
  dsimp only
  split
  · exact ⟨rfl, .inr (.inr rfl)⟩
  · split
    · exact ⟨rfl, .inl rfl⟩
    · rw [askSettle_filler]
      exact ⟨rfl, .inr (.inr rfl)⟩

theorem enterReject_rests (s : State) (reason : RejectReason) : (s.enterReject reason).filler.Rests := by
  unfold enterReject
  dsimp only
  split
  · exact ⟨rfl, .inr (.inl rfl)⟩
  · simp [Filler.Rests, queueReport_filler]

theorem abortFill_rests (s : State) (reason : RejectReason) : (s.abortFill reason).filler.Rests := by
  unfold abortFill
  dsimp only
  split
  · exact enterReject_rests _ _
  · split
    · exact ⟨rfl, .inl rfl⟩
    · exact enterClear_rests _

/-- The mark of the lane's own step MARK ends by clearing the scale. -/
theorem haltMark_fill {j : Job} (marking : s.marker.job = some j) (own : j.requester = .fill)
    (step : s.filler.step = .mark) : s.haltMark.filler.Rests := by
  rw [haltMark_marking marking, endMark_eq]
  dsimp only
  rw [if_pos ⟨own, step⟩]
  exact enterClear_rests _

/-- Any other mark ends without the lane. -/
theorem haltMark_filler (other : s.filler.step = .mark → ∀ j, s.marker.job = some j → j.requester = .remark) :
    s.haltMark.filler = s.filler := by
  cases marking : s.marker.job with
  | none => rw [haltMark_unmarked marking]
  | some j =>
    rw [haltMark_marking marking, endMark_eq]
    dsimp only
    rw [if_neg fun ⟨own, step⟩ => by simp [other step j marking] at own]
    rfl

theorem haltMark_rests (rests : s.filler.Rests) : s.haltMark.filler.Rests := by
  rw [haltMark_filler fun mark => absurd mark rests.not_mark]
  exact rests

theorem enterClear_marker (s : State) : s.enterClear.marker = s.marker := by
  unfold enterClear askSettle
  dsimp only
  split
  · rfl
  · split
    · rfl
    · split <;> rfl

theorem haltMark_job (s : State) : s.haltMark.marker.job = none := by
  cases marking : s.marker.job with
  | none => rw [haltMark_unmarked marking, marking]
  | some j =>
    rw [haltMark_marking marking, endMark_eq]
    dsimp only
    split
    · rw [enterClear_marker]
    · rfl

/-- The steps in which the entry to HALT leaves the gate: no fill is in progress, and none clears or marks on its own. -/
def HaltLeavesGate (s : State) : Prop :=
  s.filler.step = .reject ∨ s.filler.step = .idle ∨ s.filler.step = .accept
    ∨ (s.filler.step = .clear ∧ s.pins.chest = true)
    ∨ (s.filler.step = .mark ∧ (s.marker.job = none ∨ ∃ j, s.marker.job = some j ∧ j.requester = .remark))

theorem HaltLeavesGate.resting (left : s.HaltLeavesGate) :
    s.filler.step.inFill = false ∧ (s.filler.step ≠ .clear ∨ s.pins.chest = true) := by
  rcases left with step | step | step | ⟨step, high⟩ | ⟨step, -⟩ <;> simp [*, FillStep.inFill]

theorem haltLane_left (left : s.HaltLeavesGate) : s.haltFill.haltMark.filler = s.filler := by
  obtain ⟨resting, stays⟩ := left.resting
  rw [haltFill_rest resting stays]
  refine haltMark_filler fun mark j marking => ?_
  rcases left with step | step | step | ⟨step, -⟩ | ⟨-, unmarked | ⟨i, marked, remark⟩⟩
  iterate 4 rw [mark] at step; cases step
  · rw [marking] at unmarked; cases unmarked
  · rw [marking] at marked; cases marked; exact remark

theorem haltLane_rests (acts : ¬ s.HaltLeavesGate) : s.haltFill.haltMark.filler.Rests := by
  by_cases filling : s.filler.step.inFill = true
  · rw [haltFill_filling filling]
    exact haltMark_rests (s.abortFill_rests .halted)
  rw [Bool.not_eq_true] at filling
  by_cases clearing : s.filler.step = .clear
  · have low : s.pins.chest = false := Bool.eq_false_iff.2 fun high =>
      acts (.inr (.inr (.inr (.inl ⟨clearing, high⟩))))
    rw [haltFill_clear clearing low]
    exact haltMark_rests ⟨rfl, .inl rfl⟩
  have step : s.filler.step = .mark := by
    have steps := (FillStep.not_inFill_iff _).1 filling
    simp only [HaltLeavesGate, not_or] at acts
    simpa [acts.1, acts.2.1, acts.2.2.1, clearing] using steps
  rw [haltFill_rest filling (.inl clearing)]
  cases marking : s.marker.job with
  | none => exact absurd (.inr (.inr (.inr (.inr ⟨step, .inl marking⟩)))) acts
  | some j =>
    cases own : j.requester with
    | remark => exact absurd (.inr (.inr (.inr (.inr ⟨step, .inr ⟨j, marking, own⟩⟩)))) acts
    | fill => exact haltMark_fill marking own step

theorem haltLane_inFill (s : State) : s.haltFill.haltMark.filler.step.inFill = false := by
  by_cases left : s.HaltLeavesGate
  · rw [haltLane_left left]
    exact left.resting.1
  · exact (haltLane_rests left).inFill

/-! ### The raise of codes 3 to 5 (R165, R169) -/

theorem raiseHalting_of_not_online (c : FaultCode) (other : s.books.station ≠ .online) :
    s.raiseHalting c = { s with books := s.books.raiseFault c } := if_neg other

theorem raiseHalting_enters (c : FaultCode) (online : s.books.station = .online) :
    s.raiseHalting c = (s.onBooks (·.raiseFault c)).enterHalt := if_pos online

/-- In ONLINE the lane acts, then the mark ends, the CLAIMs leave and the lane's settle is withdrawn (log 13). -/
theorem raiseHalting_of_online (c : FaultCode) (online : s.books.station = .online) {h : State}
    (hh : h = { s with books := { s.books.raiseFault c with station := .halt } }) : s.raiseHalting c
      = (h.haltFill.haltMark.onBooks (·.removeClaims h.haltFill.haltMark.filling)).withdrawLane := by
  rw [hh, raiseHalting_enters c online]
  rfl

theorem raiseHalting_filler (c : FaultCode) (online : s.books.station = .online) {h : State}
    (hh : h = { s with books := { s.books.raiseFault c with station := .halt } }) :
    (s.raiseHalting c).filler = h.haltFill.haltMark.filler ∧ (s.raiseHalting c).marker.job = none := by
  rw [raiseHalting_of_online c online hh, withdrawLane_filler, withdrawLane_eq]
  exact ⟨rfl, h.haltFill.haltMark_job⟩

/-- The inputs, the line, the waiting commands and the port take no part. -/
theorem raiseHalting_frame (c : FaultCode) (online : s.books.station = .online) :
    (s.raiseHalting c).pins = s.pins ∧ (s.raiseHalting c).line = s.line ∧ (s.raiseHalting c).pending = s.pending
      ∧ (s.raiseHalting c).port = s.port := by
  have flows := flows_enterHalt (s.onBooks (·.raiseFault c))
  rw [raiseHalting_enters c online]
  exact ⟨flows.pins, flows.line, flows.pending, (stands_enterHalt _).port⟩

/-- The raise is in the list once the entry to HALT is done. -/
theorem raiseHalting_code (c : FaultCode) (online : s.books.station = .online) :
    ∃ e ∈ (s.raiseHalting c).books.faults, e.code = c := by
  have raised : (s.books.raiseFault c).faults.any (fun e => e.code = c) = true := by
    rw [Books.any_raiseFault s.books c (fun d => d = c), decide_eq_true rfl, Bool.true_or]
  rw [raiseHalting_enters c online]
  simpa only [List.any_eq_true, decide_eq_true_eq] using (stands_enterHalt (s.onBooks (·.raiseFault c))).codes c raised

theorem withdrawLane_request {q : SettleRequest} (asked : s.withdrawLane.weigh.request = some q) :
    q.who = .zeroScale := by
  have none := s.withdrawLane_none
  rw [asked] at none
  exact not_not.1 fun other => Bool.eq_false_iff.1 none ((Requester.ofLane_iff _).2 other)

theorem removeClaims_tx {b : Books} {fill : Option Nat} {e : TxEntry} (member : e ∈ (b.removeClaims fill).tx)
    (claim : e.frame.kind = 4) : e.underWay = true := by
  rw [Books.removeClaims, Books.removeEntries_tx, List.mem_map] at member
  obtain ⟨x, listed, rfl⟩ := member
  have frame : (x.marked (fun e => e.frame.kind = 4)).frame = x.frame := by unfold TxEntry.marked; split <;> rfl
  rw [frame] at claim
  simpa [TxEntry.marked_underWay, claim] using (List.mem_filter.1 listed).2

/-! ### Going ONLINE (R91, R177) -/

theorem saturationDue_iff (s : State) : s.saturationDue = true ↔ s.weigh.saturationRaised = false
    ∧ ∃ t, s.weigh.saturatedSince = some t ∧ 1000 ≤ (s.books.time - t).toNat := by
  simp only [saturationDue, Bool.and_eq_true, Bool.not_eq_true', Option.any_eq_true, decide_eq_true_eq]
  rfl

theorem saturationDue_congr {t : State} (raised : t.weigh.saturationRaised = s.weigh.saturationRaised)
    (since : t.weigh.saturatedSince = s.weigh.saturatedSince) (time : t.books.time = s.books.time) :
    t.saturationDue = s.saturationDue := by rw [saturationDue, raised, since, time, saturationDue]

/-- The entry to HALT leaves a saturation run as it stands (R90, R169). -/
theorem saturationDue_raiseHalting (s : State) (c : FaultCode) : (s.raiseHalting c).saturationDue = s.saturationDue := by
  obtain ⟨_, _, _, weigh⟩ := s.measures_raiseHalting c
  refine saturationDue_congr ?_ (by rw [weigh]) (s.raiseHalting_time c)
  by_cases online : s.books.station = .online
  · rw [raiseHalting_enters c online]
    exact (stands_enterHalt _).raised
  · rw [raiseHalting_of_not_online c online]

/-- ONLINE entered, before a sample fault that stands is raised (R177). -/
def entersOnline (s : State) : State := { s with books :=
  ({ s.books with station := .online, onlineWait := false } : Books).raiseNotice .online none none none }

theorem goOnline_eq (s : State) : s.goOnline = (if s.weigh.lossFound then s.entersOnline.raiseHalting .sampleLoss
    else s.entersOnline).raiseSaturation := rfl

theorem entersOnline_station (s : State) : s.entersOnline.books.station = .online :=
  (Books.kept_raiseNotice _ _ _ _ _).station

theorem entersOnline_saturationDue (s : State) : s.entersOnline.saturationDue = s.saturationDue :=
  saturationDue_congr rfl rfl (Books.kept_raiseNotice _ _ _ _ _).time

end State

/-! ### O56 -/

/-- Settles O56: the entry to HALT by the lane's step, what it leaves, and going ONLINE by the two sample faults. -/
theorem severeFaultsHaltTheLane : Obligations.SevereFaultsHaltTheLane := by
  refine ⟨fun s c _ => ⟨State.raiseHalting_of_not_online c, fun online => ⟨_, rfl, ?_⟩,
    fun online h t u claims hh hc hu acts => ?_⟩, fun s t ht => ?_, State.saturationDue_iff⟩
  · obtain ⟨lane, unmarked⟩ := State.raiseHalting_filler c online rfl
    refine ⟨State.raiseHalting_halts c online, State.raiseHalting_code c online, ?_, ?_, unmarked, fun q asked => ?_,
      fun e member claim => ?_, State.raiseHalting_frame c online⟩
    · rw [lane]
      split
      · next left => exact congrArg Filler.gate (State.haltLane_left left)
      · next acts => exact (State.haltLane_rests (by exact acts)).1
    · rw [lane, State.haltLane_inFill]
    · rw [State.raiseHalting_of_online c online rfl] at asked
      exact State.withdrawLane_request asked
    · rw [State.raiseHalting_of_online c online rfl, State.withdrawLane_books] at member
      exact State.removeClaims_tx member claim
  · have lane : h.haltFill = t := by
      subst hh
      rcases acts with ⟨f, fill, filling, drawn, rfl⟩ | ⟨f, fill, armed, shut, rfl⟩
        | ⟨f, fill, filling, begun, shut, rfl⟩ | ⟨clearing, low, rfl⟩ | ⟨resting, stays, rfl⟩
      · exact State.haltFill_drawn fill filling drawn
      · exact State.haltFill_armed fill armed shut
      · exact State.haltFill_undrawn fill filling begun shut
      · exact State.haltFill_clear clearing low
      · exact State.haltFill_rest resting stays
    rw [State.raiseHalting_of_online c online hh, lane, ← hu, hc]
    rfl
  · rw [State.goOnline_eq, show s.entersOnline = t from ht.symm]
    have station : t.books.station = .online := by rw [ht]; exact s.entersOnline_station
    have due : t.saturationDue = s.saturationDue := by rw [ht]; exact s.entersOnline_saturationDue
    have halted := (t.saturationDue_raiseHalting .sampleLoss).trans due
    refine ⟨fun heard early => ?_, fun heard late => ?_, fun lost early => ?_, fun lost late u hu => ?_⟩
    · rw [if_neg (by simp [heard]), State.raiseSaturation_of_not_due (due.trans early)]
    · rw [if_neg (by simp [heard]), State.raiseSaturation_of_due (due.trans late)]
      rfl
    · rw [if_pos lost, State.raiseSaturation_of_not_due (halted.trans early)]
    · have stays : u.books.station ≠ .online := by rw [hu, State.raiseHalting_halts _ station]; decide
      rw [if_pos lost, State.raiseSaturation_of_due (halted.trans late), ← hu,
        State.raiseHalting_of_not_online _ (by exact stays)]
      rfl

end Sys2Proof.Machine
end

section
/-! PROOFS. The command port: the first four checks of a taken command, refused and discarded transactions, and the response
that becomes ready and is read (R172 to R174, R179; O1, O5 to O8). -/

namespace Sys2Proof.Machine

/-- Settles O1: the front of the queue runs on the queue's rest. -/
theorem stepRunsTheFrontCommand : Obligations.StepRunsTheFrontCommand := by
  intro c rest s front
  unfold step
  rw [front]
  rfl

/-! ### The first four checks (R174) -/

/-- The layout table, as a list of codes with their lengths. -/
def layoutRows : List (Byte × Nat) :=
  [(0x01, 36), (0x02, 0), (0x10, 40), (0x11, 2), (0x12, 2), (0x13, 2), (0x20, 2), (0x21, 0), (0x22, 3), (0x23, 4),
   (0x24, 3), (0x30, 5), (0x31, 1), (0x32, 1), (0x33, 0), (0x40, 2), (0x41, 4), (0x42, 1), (0x43, 4), (0x44, 0),
   (0x45, 1), (0x46, 1), (0x47, 3), (0x7F, 0)]

theorem layoutLength_eq_lookup : ∀ code : Byte, layoutLength code = layoutRows.lookup code := by decide

/-- The commands that every station state takes: the reads but for ACK FAULT, and RESET STATION. -/
def anyStateCodes : List Byte := [0x40, 0x41, 0x42, 0x43, 0x44, 0x45, 0x47, 0x7F]

/-- CONFIGURE and GO ONLINE each have one station state, some commands have all, and the rest need the line. -/
theorem stateAllows_eq (code : Byte) (st : StationState) : stateAllows code st =
    if code = 0x01 then decide (st = .unconfigured) else if code = 0x02 then decide (st = .configured)
    else if code ∈ anyStateCodes then true else st.onLine := by
  cases st <;> revert code <;> decide

theorem haltRefuses_iff (code : Byte) : haltRefuses code = true ↔ code ∈ ([0x20, 0x12, 0x24] : List Byte) := by
  simp [haltRefuses, or_assoc]

/-- What HALT refuses is none of the commands with station states of their own. -/
theorem haltRefuses_of_own {code : Byte} (own : code = 0x01 ∨ code = 0x02 ∨ code ∈ anyStateCodes) :
    haltRefuses code = false := by
  revert code
  decide

theorem StationState.onLine_eq_false_iff (st : StationState) :
    st.onLine = false ↔ st = .unconfigured ∨ st = .configured ∨ st = .offline := by
  cases st <;> simp [StationState.onLine]

/-- The checks on the station state, for a code and a length that the layout table has. -/
theorem refusalOf_state {code : Byte} {length : Nat} (listed : layoutLength code = some length) (st : StationState) :
    refusalOf code length st =
      if code = 0x01 then (if st = .unconfigured then none else some .wrongState)
      else if code = 0x02 then (if st = .configured then none else some .wrongState)
      else if code ∈ anyStateCodes then none
      else if st = .unconfigured ∨ st = .configured ∨ st = .offline then some .wrongState
      else if st = .halt ∧ code ∈ ([0x20, 0x12, 0x24] : List Byte) then some .halted
      else none := by
  have checks : refusalOf code length st = if !stateAllows code st then some .wrongState
      else if st = .halt && haltRefuses code then some .halted else none := by simp [refusalOf, listed]
  rw [checks, stateAllows_eq]
  by_cases configure : code = 0x01
  · rw [if_pos configure, if_pos configure]
    simp [haltRefuses_of_own (.inl configure)]
  by_cases online : code = 0x02
  · rw [if_neg configure, if_neg configure, if_pos online, if_pos online]
    simp [haltRefuses_of_own (.inr (.inl online))]
  by_cases always : code ∈ anyStateCodes
  · rw [if_neg configure, if_neg configure, if_neg online, if_neg online, if_pos always, if_pos always]
    simp [haltRefuses_of_own (.inr (.inr always))]
  simp only [configure, online, always, if_false, ← StationState.onLine_eq_false_iff, ← haltRefuses_iff,
    Bool.not_eq_true', Bool.and_eq_true, decide_eq_true_eq]

/-- Settles O5: the layout table row by row, and the checks in their order. -/
theorem takenCommandsAreCheckedInOrder : Obligations.TakenCommandsAreCheckedInOrder := by
  refine ⟨layoutLength_eq_lookup, fun code length st => ?_⟩
  cases listed : layoutLength code with
  | none => simp [refusalOf, listed]
  | some n =>
    by_cases fits : length = n
    · rw [if_neg (Option.some_ne_none n), fits, if_neg (not_not.2 rfl)]
      exact refusalOf_state listed st
    · have other : some n ≠ some length := fun same => fits (Option.some.inj same).symm
      simp [refusalOf, listed, fits, other]

/-! ### Refused and discarded transactions (R172, R174) -/

/-- Every row of the layout table is a command transaction of its code; ACK FAULT's refusals alone carry data (log 18). -/
theorem exec_hostRow {row : (Params → Instr) × Byte} (listed : row ∈ hostRows) (p : Params) (s : State) :
    ∃ data body, exec (row.1 p) s = .next (s.hostCommand row.2 p data body)
      ∧ ∀ t : State, data t = if row.2 = 0x46 then [BitVec.ofNat 8 t.books.station.num] else [] := by
  simp only [hostRows, List.mem_cons, List.not_mem_nil, or_false] at listed
  rcases listed with rfl | rfl | rfl | rfl | rfl | rfl | rfl | rfl | rfl | rfl | rfl | rfl | rfl | rfl | rfl | rfl | rfl
    | rfl | rfl | rfl | rfl | rfl | rfl | rfl
  all_goals exact ⟨_, _, rfl, fun _ => rfl⟩

theorem exec_unknownCommand {code : Byte} (unlisted : layoutLength code = none) (command : code ≠ 0xFF) (p : Params)
    (s : State) : exec (.unknownCommand code p) s = .next (s.hostCommand code p noData id) := by
  simp only [exec, execUnknownCommand, unlisted, command]
  rfl

/-- Settles O6: a refusal by the first four checks, for the rows of the layout table and for an unknown code. -/
theorem refusedCommandsChangeOnlyThePort : Obligations.RefusedCommandsChangeOnlyThePort := by
  refine ⟨fun row listed p s st free refused => ?_, fun code p s unlisted command free => ?_⟩
  · obtain ⟨data, body, runs, carries⟩ := exec_hostRow listed p s
    rw [runs, State.hostCommand_refused free refused, carries]
    rfl
  · have refused : refusalOf code p.stated.length s.books.station = some .unknownCommand := by
      simp [refusalOf, unlisted]
    rw [exec_unknownCommand unlisted command, State.hostCommand_refused free refused]
    rfl

/-- The bytes after the code fall short of the length byte and the parameters that it states. -/
theorem fallsShort_cons (b : Byte) (l : List Byte) :
    fallsShort (b :: l) = true ↔ l = [] ∨ l.length < 1 + byteAt l 0 := by
  have stated : byteAt (b :: l) 1 = byteAt l 0 := rfl
  simp only [fallsShort, stated, List.length_cons, Bool.or_eq_true, decide_eq_true_eq, ← List.length_eq_zero_iff]
  omega

theorem exec_commandDiscarded {b : Byte} {l : List Byte} {midByte : Bool} {s : State} (command : b ≠ 0xFF)
    (discarded : s.port.busy = true ∨ midByte = true ∨ fallsShort (b :: l) = true) :
    exec (.commandDiscarded (b :: l) midByte) s = .next (s.transact (s.misoOf (l.length + 1))) := by
  have holds : ((b :: l).head? ≠ some 0xFF && (s.port.busy || midByte || fallsShort (b :: l))) = true := by
    rw [Bool.and_eq_true, decide_eq_true_eq]
    exact ⟨fun same => command (Option.some.inj same), by simpa [or_assoc] using discarded⟩
  exact congrArg Host.Outcome.next (if_pos holds)

/-- Settles O7: a transaction while BUSY, of each row and of an unknown code, and the ones that arrive short. -/
theorem discardedTransactionsChangeNothing : Obligations.DiscardedTransactionsChangeNothing := by
  refine ⟨fun row listed p s busy => ?_, fun code p s unlisted command busy => ?_,
    fun b l midByte s command discarded => ?_⟩
  · obtain ⟨data, body, runs, -⟩ := exec_hostRow listed p s
    rw [runs, State.hostCommand_busy busy]
  · rw [exec_unknownCommand unlisted command, State.hostCommand_busy busy]
  · rw [← fallsShort_cons b] at discarded
    exact exec_commandDiscarded command discarded

/-! ### The response (R172, R173, R179) -/

theorem State.portByte_bits (s : State) : s.portByte.getLsbD 0 = s.port.busy ∧ s.portByte.getLsbD 1 = s.port.ready
    ∧ s.portByte.getLsbD 2 = s.noticeOut ∧ ∀ k, 3 ≤ k → s.portByte.getLsbD k = false := by
  have high (n k : Nat) (small : n < 8) (above : 3 ≤ k) : (BitVec.ofNat 8 n).getLsbD k = false := by
    rw [BitVec.getLsbD_ofNat, Nat.testBit_lt_two_pow (small.trans_le (Nat.pow_le_pow_right (n := 2) (by decide) above)),
      Bool.and_false]
  unfold State.portByte
  cases s.port.busy <;> cases s.port.ready <;> cases s.noticeOut <;>
    exact ⟨rfl, rfl, rfl, fun k above => high _ k (by decide) above⟩

/-- What READ RESPONSE holds: the response in the buffer, or 00h, BUSY and length 0 (R173). -/
theorem State.responseBytes_held {s : State} {r : Response} (free : s.port.busy = false) (held : s.port.buffer = some r) :
    s.responseBytes = r.code :: r.status.code :: BitVec.ofNat 8 r.data.length :: r.data := by
  unfold State.responseBytes
  rw [free, held]
  rfl

theorem State.responseBytes_none {s : State} (none : s.port.busy = true ∨ s.port.buffer = none) :
    s.responseBytes = [0x00, 0x01, 0x00] := by
  unfold State.responseBytes
  rcases none with busy | empty
  · rw [busy]; rfl
  · rw [empty]; cases s.port.busy <;> rfl

/-- READ RESPONSE gives as much of the port byte and the response as is clocked, then free bytes (log 19). -/
theorem exec_readResponse (clocked : Nat) (s : State) {whole : List Byte} (hw : whole = s.portByte :: s.responseBytes) :
    exec (.readResponse clocked) s = .next { s with
      port := { s.port with miso := whole.take clocked ++ freeBytes s.spare (clocked - whole.length) },
      spare := s.spare + (clocked - whole.length) } := by
  have taken : (whole ++ freeBytes s.spare (clocked - whole.length)).take clocked
      = whole.take clocked ++ freeBytes s.spare (clocked - whole.length) := by
    rw [List.take_append, List.take_of_length_le (freeBytes_length _ _).le]
  rw [← taken, hw]
  rfl

/-- Settles O8: READ RESPONSE with and without a response, the response that becomes ready, and the port byte. -/
theorem responsesAreBufferedAndRead : Obligations.ResponsesAreBufferedAndRead := by
  refine ⟨fun clocked s whole holds => ⟨_, freeBytes_length s.spare _, exec_readResponse clocked s ?_⟩,
    fun s r busy made => ?_, fun s d => ⟨fun r some busy made => ?_, fun still => ?_⟩, State.portByte_bits⟩
  · rcases holds with ⟨r, free, held, rfl⟩ | ⟨none, rfl⟩
    · rw [State.responseBytes_held free held]
    · rw [State.responseBytes_none none]
  · have ready := Port.ripen_made busy made
    simp only [exec, execResponseReady, ready]
    rfl
  · rw [State.elapse_port, if_neg (by omega), Port.ripen_made busy made]
    rfl
  · rw [State.elapse_port]
    rcases still with none | unmade
    · exact if_pos none
    · rw [Port.ripen_unmade unmade, ite_self]

end Sys2Proof.Machine
end

section
/-! PROOFS. Reset begins and ends: every block at its values after reset, and the straps that are read (R1, R2, R8, R101, R103,
R125, R137, R165, R171, R175, R179; O9, O10). -/

namespace Sys2Proof.Machine

/-! ### Reset begins (R175) -/

/-- RESET STATION has no parameters, and every station state takes it (R174, R175). -/
theorem exec_resetStation {p : Params} {s : State} (bare : p.stated = []) (free : s.portFree) :
    exec (.resetStation p) s = .next (s.take 0x7F (p.stated.length + p.beyond.length)).enterReset := by
  have admitted : s.admits 0x7F p := ⟨free, by rw [bare]; cases s.books.station <;> rfl⟩
  exact congrArg Host.Outcome.next (State.hostCommand_admits admitted noData State.enterReset)

/-- No gate is open, nothing runs, and no fault or notice stands as reset begins (R101, R137, R179). -/
theorem enterReset_outputs (s : State) : (∀ k, s.enterReset.coarseOut k = false ∧ s.enterReset.fineOut k = false)
    ∧ s.enterReset.outfeedRun = false ∧ s.enterReset.rejectOut = false ∧ s.enterReset.noticeOut = false
    ∧ s.enterReset.chainOut = .rest ∧ s.enterReset.dataOut = [false] :=
  ⟨fun _ => ⟨rfl, rfl⟩, rfl, rfl, rfl, rfl, rfl⟩

/-- Only a SHIFT that is cut short changes the head's path (log 42). -/
theorem enterReset_path {s : State} (whole : s.marker.chain ≠ .shift) :
    s.enterReset.marker.path = s.marker.path ∧ s.enterReset.marker.unknown = s.marker.unknown := by
  have stands : s.marker.cutShift = s.marker := if_neg whole
  simp [State.enterReset, stands]

/-- Settles O9: the pin resets the machine as it stands, RESET STATION as the taken command leaves it. -/
theorem resetEmptiesEveryBlock : Obligations.ResetEmptiesEveryBlock := by
  rintro c p s (rfl | ⟨rfl, bare, free⟩)
  · exact ⟨s.enterReset, rfl, rfl, rfl, rfl, rfl, rfl, rfl, rfl, rfl, enterReset_path, rfl, rfl, rfl,
      enterReset_outputs s⟩
  · exact ⟨_, exec_resetStation bare free, rfl, rfl, rfl, rfl, rfl, rfl, rfl, rfl,
      enterReset_path (s := s.take _ _), rfl, rfl, rfl, enterReset_outputs _⟩

/-! ### What a severe fault of codes 1 and 2 leaves (R171) -/

/-- The report of a cut chest removes no code from the fault list. -/
theorem Books.Retains.offlineFill {s : State} {b : Books} (h : b.Retains s.books) : b.Retains s.offlineFill.books := by
  rw [offlineFill_eq]
  dsimp only
  split
  · exact h
  · have reported (f : Fill) := (h.raiseNotice .chestRejected (some f.invoice) none (some 6)).queueFrame none
      (f := .chest f.invoice ⟨0, 0, 0, 0, 0, f.draws⟩) (by simp [Frame.kind])
    exact .ite (Books.Retains.chestLost (.ite (reported _) h) _).dropReservation h.dropReservation

/-- The entry to OFFLINE, in one state: what it changes of the lane, the head, the settles and the port. -/
theorem raiseOffline_of_not_offline {s : State} (c : FaultCode) (station : s.books.station ≠ .offline) {t : State}
    (ht : t = { s with books := { s.books.raiseFault c with station := .offline } }) :
    s.raiseOffline c = { s with
      books := t.offlineFill.books,
      marker := s.marker.cutShift.stop,
      weigh := { s.weigh with request := none, timer := 0 },
      port := if s.weigh.request.any (fun q => q.who = .zeroScale) then (t.reply .notSteady []).port else s.port,
      filler := { s.filler with step := .idle, fill := none, gate := .closed, flow := none, rejectTimer := 0 } } := by
  rw [raiseOffline_enters c station rfl ht, offline_acts, ht]

theorem raiseOffline_of_offline {s : State} (c : FaultCode) (station : s.books.station = .offline) :
    s.raiseOffline c = { s with books := s.books.raiseFault c } := if_pos station

theorem State.reply_busy (s : State) (st : Status) (data : List Byte) : (s.reply st data).port.busy = s.port.busy := by
  unfold reply; split <;> rfl

/-- The raise is in the list, and the straps stand. -/
theorem raiseOffline_books (s : State) (c : FaultCode) : (s.raiseOffline c).books.station = .offline
    ∧ (s.raiseOffline c).books.straps = s.books.straps ∧ ∃ e ∈ (s.raiseOffline c).books.faults, e.code = c := by
  have raised : (s.books.raiseFault c).faults.any (fun e => e.code = c) = true := by
    rw [Books.any_raiseFault s.books c (fun d => d = c), decide_eq_true rfl, Bool.true_or]
  by_cases station : s.books.station = .offline
  · rw [raiseOffline_of_offline c station]
    exact ⟨station, rfl, by simpa using raised⟩
  · obtain ⟨t, ht⟩ : ∃ t : State, t = { s with books := { s.books.raiseFault c with station := .offline } } := ⟨_, rfl⟩
    have kept := t.flows_offlineFill.books
    have codes : (s.books.raiseFault c).Retains t.offlineFill.books :=
      Books.Retains.offlineFill ((Books.Retains.refl _).of_faults (by rw [ht]))
    rw [raiseOffline_of_not_offline c station ht]
    exact ⟨kept.station.trans (by rw [ht]), kept.straps.trans (by rw [ht]; rfl), by simpa using codes c raised⟩

/-- The inputs, the line, the waiting commands, the remembered CHEST level and BUSY take no part. -/
theorem raiseOffline_frame (s : State) (c : FaultCode) : (s.raiseOffline c).inReset = s.inReset
    ∧ (s.raiseOffline c).filler.remembered = s.filler.remembered ∧ (s.raiseOffline c).port.busy = s.port.busy
    ∧ (s.raiseOffline c).pins = s.pins ∧ (s.raiseOffline c).line = s.line ∧ (s.raiseOffline c).pending = s.pending := by
  by_cases station : s.books.station = .offline
  · rw [raiseOffline_of_offline c station]
    exact ⟨rfl, rfl, rfl, rfl, rfl, rfl⟩
  · rw [raiseOffline_of_not_offline c station rfl]
    refine ⟨rfl, rfl, ?_, rfl, rfl, rfl⟩
    dsimp only
    split
    · exact State.reply_busy _ _ _
    · rfl

/-! ### Reset ends (R1, R103, R175) -/

theorem Straps.invalid_iff (station : BitVec 5) (rate : BitVec 2) :
    Straps.invalid { station := station.toNat, rate := rate.toNat } = true ↔ station = 0 ∨ rate = 3 := by
  simp [Straps.invalid, BitVec.toNat_eq]

/-- The machine with the straps `k` read and held, before they are judged (R175). -/
def State.strapsRead (s : State) (k : Straps) : State :=
  { s with
    inReset := false, books := { s.books with straps := k }, filler := { s.filler with remembered := s.pins.chest },
    port := { s.port with busy := false } }

theorem exec_resetEnd {station : BitVec 5} {rate : BitVec 2} {s : State} (reset : s.inReset = true) {k : Straps}
    (hk : k = { station := station.toNat, rate := rate.toNat }) : exec (.resetEnd station rate) s
      = .next (if station = 0 ∨ rate = 3 then (s.strapsRead k).raiseOffline .strapInvalid else s.strapsRead k) := by
  have leaves : exec (.resetEnd station rate) s = .next (s.leaveReset k) := by
    rw [hk]; exact congrArg Host.Outcome.next (if_pos reset)
  simp only [leaves, ← Straps.invalid_iff, ← hk]
  rfl

/-- Invalid straps after RESET: nothing but the fault is left of the entry to OFFLINE. -/
theorem raiseOffline_afterReset (s : State) (k : Straps) :
    (s.enterReset.strapsRead k).raiseOffline .strapInvalid = { s.enterReset.strapsRead k with
      books := { (s.enterReset.strapsRead k).books with
        station := .offline,
        faults := [{ code := .strapInvalid, count := 1, cause := .present, first := 0, latest := 0 }] },
      marker := s.enterReset.marker.cutShift.stop } := by
  rw [raiseOffline_of_not_offline _ (by exact nofun) rfl, (offlineFill_books _).1 rfl]
  rfl

/-- Settles O10: the straps judged from any state in reset, and from the one that RESET leaves. -/
theorem resetEndReadsTheStraps : Obligations.ResetEndReadsTheStraps := by
  refine ⟨fun station rate s reset => ⟨fun number code => ?_, fun invalid => ?_⟩, fun station rate s running => ?_,
    fun station rate s₀ s begins => ?_⟩
  · rw [exec_resetEnd reset rfl, if_neg (not_or.2 ⟨number, code⟩)]
    rfl
  · obtain ⟨offline, straps, raised⟩ := raiseOffline_books (s.strapsRead ⟨station.toNat, rate.toNat⟩) .strapInvalid
    obtain ⟨running, remembered, busy, frame⟩ :=
      raiseOffline_frame (s.strapsRead ⟨station.toNat, rate.toNat⟩) .strapInvalid
    exact ⟨_, by rw [exec_resetEnd reset rfl, if_pos invalid], running, offline, raised, straps, remembered, busy, frame⟩
  · exact congrArg Host.Outcome.next (if_neg (by simp [running]))
  · obtain rfl : s₀.enterReset = s := by simpa [exec, execReset] using begins
    refine ⟨_, exec_resetEnd rfl rfl, ?_⟩
    split
    · rw [raiseOffline_afterReset]
      exact ⟨rfl, rfl, rfl, rfl, ⟨rfl, rfl⟩, rfl, rfl, rfl, rfl⟩
    · exact ⟨rfl, rfl, rfl, rfl, ⟨rfl, rfl⟩, rfl, rfl, rfl, rfl⟩

end Sys2Proof.Machine
end

section
/-! PROOFS. CONFIGURE: the checks of R176, and what each block is given; GO ONLINE: the wait, the idle line, and the sample
faults that stand (R22, R86, R90, R91, R100, R125, R126, R169, R176, R177; O11, O12). -/

namespace Sys2Proof.Machine

/-! ### The checks of CONFIGURE (R176) -/

theorem exec_configure (p : Params) (s : State) :
    exec (.configure p) s = .next (s.hostCommand 0x01 p noData (fun t => t.configureBody p.stated)) := rfl

theorem feederAt_unused {p : List Byte} {i : Nat} (unused : byteAt p i = 0) : feederAt p i = none := if_pos unused

theorem feederAt_used {p : List Byte} {i : Nat} (used : byteAt p i ≠ 0) :
    feederAt p i = some { bin := byteAt p i, fineBand := num2 p (i + 1), initial := num2 p (i + 3) } := if_neg used

/-- The used feeders, by their numbers. -/
theorem usedFeeders_eq (p : List Byte) : (feedersOf p).toList.filterMap id
    = (List.range 4).filterMap (fun k => feederAt p (16 + 5 * k)) := rfl

theorem pairwise_range_iff {R : Nat → Nat → Prop} (m : Nat) :
    (List.range m).Pairwise R ↔ ∀ k < m, ∀ j < k, R j k := by
  simp only [List.pairwise_iff_getElem, List.length_range, List.getElem_range]
  exact ⟨fun h k hk j hj => h j k (hj.trans hk) hk hj, fun h j k _ hk hj => h k hk j hj⟩

/-- Every used feeder's bin, fine band and initial value lie in their ranges. -/
theorem usedFeeders_valid_iff (p : List Byte) : ((feedersOf p).toList.filterMap id).all Feeder.valid = true
    ↔ ∀ k < 4, byteAt p (16 + 5 * k) ≠ 0 →
      byteAt p (16 + 5 * k) ≤ 64 ∧ num2 p (17 + 5 * k) ≤ 1000 ∧ num2 p (19 + 5 * k) ≤ 300 := by
  have one (k : Nat) : (∀ f, feederAt p (16 + 5 * k) = some f → f.valid = true) ↔ (byteAt p (16 + 5 * k) ≠ 0 →
      byteAt p (16 + 5 * k) ≤ 64 ∧ num2 p (17 + 5 * k) ≤ 1000 ∧ num2 p (19 + 5 * k) ≤ 300) := by
    by_cases unused : byteAt p (16 + 5 * k) = 0
    · simp [feederAt_unused unused, unused]
    · have places : 16 + 5 * k + 1 = 17 + 5 * k ∧ 16 + 5 * k + 3 = 19 + 5 * k := by omega
      have bin : 1 ≤ byteAt p (16 + 5 * k) := Nat.one_le_iff_ne_zero.2 unused
      simp [feederAt_used unused, unused, Feeder.valid, inside_iff, places, bin, and_assoc]
  simp only [usedFeeders_eq, List.all_eq_true, List.mem_filterMap, List.mem_range, ← one]
  exact ⟨fun h k hk f hf => h f ⟨k, hk, hf⟩, fun h f ⟨k, hk, hf⟩ => h k hk f hf⟩

/-- No two used feeders have one bin. -/
theorem usedFeeders_nodup_iff (p : List Byte) : (((feedersOf p).toList.filterMap id).map (·.bin)).Nodup
    ↔ ∀ k < 4, ∀ j < k, byteAt p (16 + 5 * k) ≠ 0 → byteAt p (16 + 5 * j) ≠ byteAt p (16 + 5 * k) := by
  have one (j k : Nat) : (∀ f, feederAt p (16 + 5 * j) = some f → ∀ g, feederAt p (16 + 5 * k) = some g → f.bin ≠ g.bin)
      ↔ (byteAt p (16 + 5 * k) ≠ 0 → byteAt p (16 + 5 * j) ≠ byteAt p (16 + 5 * k)) := by
    by_cases unused : byteAt p (16 + 5 * k) = 0
    · simp [feederAt_unused unused, unused]
    by_cases first : byteAt p (16 + 5 * j) = 0
    · simp [feederAt_unused first, first, unused, Ne.symm unused]
    · simp [feederAt_used unused, feederAt_used first, unused]
  rw [usedFeeders_eq, List.Nodup, List.pairwise_map, List.pairwise_filterMap, pairwise_range_iff]
  simp only [one]

/-- The ranges of the scale values (R86). -/
theorem Scale.valid_iff (sc : Scale) : sc.valid = true ↔ (sc.window = 4 ∨ sc.window = 8 ∨ sc.window = 16)
    ∧ 10000 ≤ sc.c10 ∧ sc.c10 ≤ 2000000 ∧ -8388591 ≤ sc.zero ∧ sc.zero ≤ 8388591
    ∧ 1000 ≤ sc.capacity ∧ sc.capacity ≤ 30000 ∧ 1 ≤ sc.motion ∧ sc.motion ≤ 50
    ∧ 100 ≤ sc.settle ∧ sc.settle ≤ 2000 ∧ sc.settle % 50 = 0 := by
  simp only [Scale.valid, Bool.and_eq_true, Bool.or_eq_true, decide_eq_true_eq, inside_iff, and_assoc, or_assoc]

/-- The checks of R176, one by one. -/
theorem configValid_iff (p : List Byte) : configValid p = true ↔ configLawful p := by
  simp only [configValid, Bool.and_eq_true, decide_eq_true_eq, inside_iff, Scale.valid_iff, scaleOf,
    usedFeeders_valid_iff, usedFeeders_nodup_iff, configLawful, and_assoc, ← Nat.lt_succ_iff (n := 7)]

/-! ### What CONFIGURE gives (R86, R100, R125, R126, R176) -/

theorem configure_feeder (s : State) (p : List Byte) {k : Nat} (hk : k < 4) :
    (s.configureWith p).books.feeders[k] = feederAt p (16 + 5 * k)
    ∧ (s.configureWith p).filler.inflight[k] = inflightAt p (16 + 5 * k) := by
  match k, hk with
  | 0, _ | 1, _ | 2, _ | 3, _ => exact ⟨rfl, rfl⟩

/-- A used feeder's settings and its initial in-flight value; an unused one has neither. -/
theorem configured_feeder (s : State) (p : List Byte) {k : Nat} (hk : k < 4) :
    (byteAt p (16 + 5 * k) = 0 →
      (s.configureWith p).books.feeders[k] = none ∧ (s.configureWith p).filler.inflight[k] = 0)
    ∧ (byteAt p (16 + 5 * k) ≠ 0 → (s.configureWith p).filler.inflight[k] = num2 p (19 + 5 * k)
      ∧ (s.configureWith p).books.feeders[k] = some { bin := byteAt p (16 + 5 * k), fineBand := num2 p (17 + 5 * k),
                                                      initial := num2 p (19 + 5 * k) }) := by
  have places : 16 + 5 * k + 1 = 17 + 5 * k ∧ 16 + 5 * k + 3 = 19 + 5 * k := by omega
  obtain ⟨feeder, inflight⟩ := configure_feeder s p hk
  rw [feeder, inflight, inflightAt]
  exact ⟨fun unused => by simp [feederAt_unused unused], fun used => by simp [feederAt_used used, places]⟩

theorem headOf_absent {byte : Nat} (even : byte % 2 = 0) : headOf byte = none := by
  simp [headOf, Nat.testBit_zero, even]

theorem headOf_present {byte : Nat} (odd : byte % 2 = 1) : headOf byte
    = some { nozzle32First := byte / 2 % 2 = 1, activeLow := byte / 4 % 2 = 1 } := by
  simp [headOf, Nat.testBit_eq_decide_div_mod_eq, odd]

/-- With a head the latch is cleared to no-fire once (R125, R126). -/
theorem Marker.configure_present (m : Marker) (h : Head) : m.configure (some h)
    = { m with head := some h, firing := none, latch := if h.activeLow then BitVec.allOnes 32 else 0 } := by
  simp [Marker.configure, Marker.clearLatch, Head.noFire, Head.levels]

/-- Settles O11: a lawful configuration reaches its owners, and no other passes the checks. -/
theorem configureGivesEveryOwnerItsValues : Obligations.ConfigureGivesEveryOwnerItsValues := by
  intro p s admitted
  rw [exec_configure, State.hostCommand_admits admitted, State.configureBody]
  refine ⟨fun lawful => ?_, fun unlawful => ?_⟩
  · rw [if_pos ((configValid_iff _).2 lawful)]
    refine ⟨_, rfl, rfl, rfl, fun k hk => configured_feeder (s.take _ _) p.stated hk, rfl, fun absent => ?_,
      fun present => ?_, rfl⟩
    · exact congrArg s.marker.configure (headOf_absent absent)
    · exact (congrArg s.marker.configure (headOf_present present)).trans (by rw [Marker.configure_present]; simp)
  · rw [if_neg fun valid => unlawful ((configValid_iff _).1 valid)]
    rfl

/-! ### GO ONLINE (R22, R177) -/

theorem exec_goOnline (p : Params) (s : State) :
    exec (.goOnline p) s = .next (s.hostCommand 0x02 p noData State.goOnlineBody) := rfl

section
variable {s : State}

theorem goOnlineBody_waiting (waits : s.books.onlineWait = true) : s.goOnlineBody = s.reply .busy [] := if_pos waits

theorem goOnlineBody_busy (free : s.books.onlineWait = false) (busy : s.line.level ≠ .idle) :
    s.goOnlineBody = (s.setBooks { s.books with onlineWait := true }).reply .ok [0x00] := by
  rw [State.goOnlineBody, if_neg (by simp [free]), if_neg busy]
  rfl

theorem goOnlineBody_idle (free : s.books.onlineWait = false) (idle : s.line.level = .idle) :
    s.goOnlineBody = s.goOnline.reply .ok [0x01] := by
  rw [State.goOnlineBody, if_neg (by simp [free]), if_pos idle]
  rfl

/-- No sample fault stands. -/
theorem goOnline_quiet (heard : s.weigh.lossFound = false) (early : s.saturationDue = false) :
    s.goOnline = s.entersOnline := by
  rw [State.goOnline_eq, if_neg (by simp [heard]),
    State.raiseSaturation_of_not_due (s.entersOnline_saturationDue.trans early)]

/-- A raise of codes 3 to 5 leaves the port, the mark of SCALE_SATURATED, and the codes that stand (R165, R169). -/
theorem stands_raiseHalting (s : State) (c : FaultCode) : s.Stands (s.raiseHalting c) := by
  have codes : s.books.Retains (s.books.raiseFault c) := (Books.Retains.refl _).raiseFault c
  by_cases online : s.books.station = .online
  · obtain ⟨port, raised, kept⟩ := State.stands_enterHalt (s.onBooks (·.raiseFault c))
    rw [State.raiseHalting_enters c online]
    exact ⟨port, raised, fun d stands => kept d (codes d stands)⟩
  · rw [State.raiseHalting_of_not_online c online]
    exact ⟨rfl, rfl, codes⟩

/-- Outside ONLINE, SCALE_SATURATED joins the list and the station state stands (R169). -/
theorem raiseSaturation_of_not_online (other : s.books.station ≠ .online) :
    s.raiseSaturation.books.station = s.books.station ∧ s.raiseSaturation.port = s.port
      ∧ s.books.Retains s.raiseSaturation.books := by
  cases due : s.saturationDue with
  | false =>
    rw [State.raiseSaturation_of_not_due due]
    exact ⟨rfl, rfl, .refl _⟩
  | true =>
    rw [State.raiseSaturation_of_due due, State.raiseHalting_of_not_online _ (by exact other)]
    exact ⟨rfl, rfl, (Books.Retains.refl _).raiseFault _⟩

/-- Sample loss stands: SAMPLE_LOSS halts the station, whatever the saturation run adds (R91). -/
theorem goOnline_lost (lost : s.weigh.lossFound = true) : s.goOnline.books.station = .halt
    ∧ (∃ e ∈ s.goOnline.books.faults, e.code = .sampleLoss) ∧ s.goOnline.port = s.port := by
  have halted := State.raiseHalting_halts .sampleLoss s.entersOnline_station
  have listed := State.raiseHalting_code .sampleLoss s.entersOnline_station
  have port := (stands_raiseHalting s.entersOnline .sampleLoss).port
  obtain ⟨station, still, codes⟩ := raiseSaturation_of_not_online (s := s.entersOnline.raiseHalting .sampleLoss)
    (by rw [halted]; decide)
  rw [State.goOnline_eq, if_pos lost]
  refine ⟨station.trans halted, ?_, still.trans port⟩
  simpa using codes .sampleLoss (by simpa using listed)

/-- A saturation run of 1,000 ms stands alone: SCALE_SATURATED halts the station, and is marked as raised (R90). -/
theorem goOnline_saturated (heard : s.weigh.lossFound = false) (due : s.saturationDue = true) :
    s.goOnline.books.station = .halt ∧ (∃ e ∈ s.goOnline.books.faults, e.code = .scaleSaturated)
      ∧ s.goOnline.weigh.saturationRaised = true ∧ s.goOnline.port = s.port := by
  rw [State.goOnline_eq, if_neg (by simp [heard]),
    State.raiseSaturation_of_due (s.entersOnline_saturationDue.trans due)]
  have online := s.entersOnline_station
  obtain ⟨port, raised, -⟩ :=
    stands_raiseHalting (s.entersOnline.setWeigh { s.entersOnline.weigh with saturationRaised := true }) .scaleSaturated
  exact ⟨State.raiseHalting_halts _ (by exact online), State.raiseHalting_code _ (by exact online), raised, port⟩

end

/-- A standing entry of codes 3 to 5 is one that halts. -/
theorem Books.anyHalting_of_mem {b : Books} {c : FaultCode} (halts : c.halts = true) (listed : ∃ e ∈ b.faults, e.code = c) :
    b.anyHalting = true := by
  obtain ⟨e, member, rfl⟩ := listed
  exact List.any_eq_true.2 ⟨e, member, halts⟩

/-- The response to a command whose body has left the port as it was when the command was taken. -/
theorem reply_port_of_taken {s u : State} {code : Byte} {p : Params}
    (port : u.port = (s.take code (p.stated.length + p.beyond.length)).port) (st : Status) (data : List Byte) :
    (u.reply st data).port = s.answered code p st data := by
  rw [State.reply_some (by rw [port]; rfl), port]
  rfl

/-- Settles O12: by the wait, the line, and the sample faults that stand. -/
theorem goOnlineAtAnIdleLine : Obligations.GoOnlineAtAnIdleLine := by
  intro p s admitted
  rw [exec_goOnline, State.hostCommand_admits admitted]
  refine ⟨fun waits => ?_, fun free busy => ?_, fun free idle heard early => ?_, fun free idle lost => ?_,
    fun free idle heard due => ?_⟩
  · rw [goOnlineBody_waiting (by exact waits), State.reply_take]
    rfl
  · rw [goOnlineBody_busy (by exact free) (by exact busy)]
    rfl
  · rw [goOnlineBody_idle (by exact free) (by exact idle), goOnline_quiet (by exact heard) (by exact early)]
    rfl
  · rw [goOnlineBody_idle (by exact free) (by exact idle)]
    obtain ⟨halted, listed, port⟩ := goOnline_lost (s := s.take 0x02 (p.stated.length + p.beyond.length)) lost
    refine ⟨_, rfl, ?_, ?_, ?_, reply_port_of_taken port _ _⟩ <;> rw [State.reply_books]
    · exact halted
    · exact Books.anyHalting_of_mem rfl listed
    · exact listed
  · rw [goOnlineBody_idle (by exact free) (by exact idle)]
    obtain ⟨halted, listed, raised, port⟩ :=
      goOnline_saturated (s := s.take 0x02 (p.stated.length + p.beyond.length)) heard due
    refine ⟨_, rfl, ?_, ?_, ?_, reply_port_of_taken port _ _⟩
    · rw [State.reply_books]; exact halted
    · rw [State.reply_books]; exact listed
    · rw [State.reply_weigh]; exact raised

end Sys2Proof.Machine
end

section
/-! PROOFS. READ NOTICE and READ STATUS: the oldest notice, and the bytes of the five parts (R99, R100, R178, R180; O27, O30). -/

namespace Sys2Proof.Machine

/-! ### READ NOTICE (R178) -/

theorem exec_readNotice (p : Params) (s : State) :
    exec (.readNotice p) s = .next (s.hostCommand 0x44 p noData State.readNoticeBody) := rfl

theorem readNoticeBody_empty {s : State} (empty : s.books.notices = []) :
    s.readNoticeBody = s.replySpending (noNotice s.spare) := by
  unfold State.readNoticeBody; rw [empty]

theorem readNoticeBody_oldest {s : State} {x : Notice} {l : List Notice} (held : s.books.notices = x :: l) :
    s.readNoticeBody = (s.onBooks Books.takeNotice).replySpending (x.data l.length s.spare) := by
  unfold State.readNoticeBody; rw [held]

/-- The oldest notice leaves, and fewer than 32 clear the cause of NOTICE_OVERFLOW. -/
theorem takeNotice_eq {b : Books} {x : Notice} {l : List Notice} (held : b.notices = x :: l) : b.takeNotice
    = if l.length < 32 then ({ b with notices := l } : Books).clearCause .noticeOverflow else { b with notices := l } := by
  unfold Books.takeNotice
  rw [held]
  rfl

/-- Settles O27: the answer on an empty queue, and the oldest notice with those left behind it. -/
theorem readNoticeTakesTheOldest : Obligations.ReadNoticeTakesTheOldest := by
  intro p s admitted
  rw [exec_readNotice, State.hostCommand_admits admitted]
  refine ⟨fun empty => ⟨freeBytes s.spare 4, freeBytes (s.spare + 4) 2, freeBytes_length _ _, freeBytes_length _ _, ?_⟩,
    fun x l held => ⟨freeBytes s.spare 2, freeBytes_length _ _, ?_⟩⟩
  · rw [readNoticeBody_empty (s := s.take _ _) empty, State.replySpending_take]
    simp only [noNotice, beFree2_eq, List.append_assoc]
    rfl
  · rw [readNoticeBody_oldest (s := s.take _ _) held, ← takeNotice_eq held, Notice.data, beFree2_eq]
    rfl

/-! ### READ STATUS (R180) -/

theorem exec_readStatus (p : Params) (s : State) : exec (.readStatus p) s = .next (s.hostCommand 0x47 p noData
    (fun t => t.readStatusBody (byteAt p.stated 0) (num2 p.stated 1))) := rfl

theorem readStatusBody_range (s : State) {part : Nat} (outside : part = 0 ∨ 5 < part) (n : Nat) :
    s.readStatusBody part n = s.reply .range [] := by
  rcases outside with rfl | beyond
  · rfl
  · obtain ⟨k, rfl⟩ : ∃ k, part = k + 6 := ⟨part - 6, by omega⟩
    rfl

/-- The four in-flight values, by feeder (R100). -/
theorem inflight_bytes (s : State) : s.filler.inflight.toList.flatMap be2
    = be2 (s.inflight 1) ++ be2 (s.inflight 2) ++ be2 (s.inflight 3) ++ be2 (s.inflight 4) := by
  unfold State.inflight
  obtain ⟨⟨l⟩, size⟩ := s.filler.inflight
  match l, size with
  | [_, _, _, _], _ => rfl

/-- Part WEIGH with the free bytes that stand for the zero before CONFIGURE (R99). -/
theorem weighPart_eq (s : State) (n : Nat) : s.weighPart n
    = be1 (if s.weigh.reading = none then 0 else 1) ++ beSigned3 ((s.weigh.reading.map (·.weight)).getD 0)
      ++ be1 (if (s.weigh.reading.map (·.isOver)).getD false then 1 else 0)
      ++ be1 (if s.weigh.steady then 1 else 0) ++ be1 ((s.weigh.request.map (fun q => q.who.num)).getD 0)
      ++ (s.weigh.scale.map (fun sc => beSigned3 sc.zero)).getD (freeBytes n 3) := by
  unfold State.weighPart
  cases s.weigh.reading <;> cases s.weigh.scale <;> rfl

/-- Part MARK with a job; the ready set is free before the first SHIFT is done (R130). -/
theorem markPart_job {s : State} {j : Job} (marking : s.marker.job = some j) (n : Nat) : s.markPart n
    = be1 s.marker.chain.num ++ be1 (if j.requester = .fill then 1 else 2) ++ be2 j.invoice ++ be1 j.serial
      ++ be1 j.position ++ be1 j.positions ++ be1 (if j.defect then 1 else 0)
      ++ (j.ready.map (fun r => be4 r.toNat)).getD (freeBytes n 4) := by
  unfold State.markPart
  rw [marking]
  dsimp only
  cases j.requester <;> cases j.ready <;> rfl

theorem markPart_idle {s : State} (idle : s.marker.job = none) (n : Nat) : s.markPart n
    = be1 s.marker.chain.num ++ [0, 0, 0, 0, 0, 0] ++ freeBytes n 5 := by
  unfold State.markPart
  rw [idle]
  rfl

section
variable {s : State} {n : Nat}

theorem readStatusBody_fill : s.readStatusBody 2 n = s.reply .ok s.fillPart := rfl

theorem readStatusBody_weigh : s.readStatusBody 3 n = s.replySpending (s.weighPart s.spare) := rfl

theorem readStatusBody_mark : s.readStatusBody 4 n = s.replySpending (s.markPart s.spare) := rfl

theorem readStatusBody_absent (absent : s.books.invoice? n = none) : s.readStatusBody 5 n = s.reply .notActive [] :=
  if_pos (by simp [Books.hasInvoice, absent])

/-- Part CLOSE of an invoice in the table is its round's, where there is one. -/
theorem readStatusBody_present (present : s.books.invoice? n ≠ none) :
    (s.books.round? n = none → s.readStatusBody 5 n = s.reply .notPresent [])
    ∧ ∀ d, s.books.round? n = some d → s.readStatusBody 5 n = s.reply .ok (d.data s.books.time) := by
  have has : s.books.hasInvoice n = true := Option.isSome_iff_ne_none.2 present
  refine ⟨fun none => ?_, fun d runs => ?_⟩ <;> simp only [State.readStatusBody, *] <;> rfl

end

/-- Part CLOSE of a round: the phase, and what is left of it (R180). -/
theorem Round.data_eq (d : Round) (now : Time) : d.data now = be1 d.number
    ++ (match d.phase with
      | .window e => be1 1 ++ be2 (msUntil e now)
      | .callQueued => be1 2 ++ be2 0
      | .extension e => be1 3 ++ be2 (msUntil e now))
    ++ be1 d.extensions ++ be1 d.answers.length := by
  cases phase : d.phase <;> simp [Round.data, phase, RoundPhase.num, RoundPhase.remaining]

/-- Settles O30: the five parts, and what is refused. -/
theorem readStatusGivesThePart : Obligations.ReadStatusGivesThePart := by
  rintro p s n admitted rfl
  rw [exec_readStatus, State.hostCommand_admits admitted]
  refine ⟨fun outside => ?_, fun station => ?_, fun fill => ?_, fun weigh => ⟨freeBytes s.spare 3, freeBytes_length _ _, ?_⟩,
    fun mark idle => ⟨freeBytes s.spare 5, freeBytes_length _ _, ?_⟩,
    fun j mark marking => ⟨freeBytes s.spare 4, freeBytes_length _ _, ?_⟩,
    fun close => ⟨fun absent => ?_, fun present => ⟨fun none => ?_, fun d runs => ?_⟩⟩⟩
  · rw [readStatusBody_range _ outside, State.reply_take]
    rfl
  · rw [station]
    rfl
  · rw [fill, readStatusBody_fill, State.reply_take, State.fillPart, inflight_bytes]
    simp only [List.append_assoc]
    rfl
  · rw [weigh, readStatusBody_weigh, State.replySpending_take, weighPart_eq]
    rfl
  · rw [mark, readStatusBody_mark, State.replySpending_take, markPart_idle (by exact idle)]
    rfl
  · rw [mark, readStatusBody_mark, State.replySpending_take, markPart_job (by exact marking)]
    rfl
  · rw [close, readStatusBody_absent (s := s.take _ _) absent, State.reply_take]
    rfl
  · rw [close, (readStatusBody_present (s := s.take _ _) present).1 none, State.reply_take]
    rfl
  · rw [close, (readStatusBody_present (s := s.take _ _) present).2 d runs, State.reply_take, Round.data_eq]
    rfl

end Sys2Proof.Machine
end

section
/-! PROOFS. Every command, event and timed row answers a next state, and leaves the queue of waiting commands (O3). -/

namespace Sys2Proof.Machine

/-- The queue of waiting commands is as it was. -/
def State.SameQueue (s t : State) : Prop := t.pending = s.pending

namespace State

variable {s t : State}

/-! ### Updates -/

theorem SameQueue.refl (s : State) : s.SameQueue s := rfl

theorem SameQueue.ite {c : Prop} [Decidable c] {u : State} (h : s.SameQueue t) (k : s.SameQueue u) :
    s.SameQueue (if c then t else u) := by split <;> assumption

theorem SameQueue.flows {u : State} (h : s.SameQueue t) (flows : t.Flows u) : s.SameQueue u := flows.pending.trans h

theorem SameQueue.onBooks (h : s.SameQueue t) (f : Books → Books) : s.SameQueue (t.onBooks f) := h

theorem SameQueue.setBooks (h : s.SameQueue t) (b : Books) : s.SameQueue (t.setBooks b) := h

theorem SameQueue.setLine (h : s.SameQueue t) (l : Line) : s.SameQueue (t.setLine l) := h

theorem SameQueue.setWeigh (h : s.SameQueue t) (w : Weigh) : s.SameQueue (t.setWeigh w) := h

theorem SameQueue.setFiller (h : s.SameQueue t) (f : Filler) : s.SameQueue (t.setFiller f) := h

theorem SameQueue.setMarker (h : s.SameQueue t) (m : Marker) : s.SameQueue (t.setMarker m) := h

theorem SameQueue.setPort (h : s.SameQueue t) (p : Port) : s.SameQueue (t.setPort p) := h

theorem SameQueue.setPins (h : s.SameQueue t) (p : Pins) : s.SameQueue (t.setPins p) := h

theorem SameQueue.reply (h : s.SameQueue t) (st : Status) (data : List Byte) : s.SameQueue (t.reply st data) :=
  (t.reply_pending st data).trans h

theorem SameQueue.replySpending (h : s.SameQueue t) (data : List Byte) : s.SameQueue (t.replySpending data) :=
  h.reply _ _

/-! ### The station state (R169 to R171, R177) -/

theorem SameQueue.raiseHalting (h : s.SameQueue t) (c : FaultCode) : s.SameQueue (t.raiseHalting c) := by
  by_cases online : t.books.station = .online
  · obtain ⟨-, -, pending, -⟩ := raiseHalting_frame c online
    exact pending.trans h
  · rw [raiseHalting_of_not_online c online]
    exact h

theorem SameQueue.raiseOffline (h : s.SameQueue t) (c : FaultCode) : s.SameQueue (t.raiseOffline c) := by
  obtain ⟨-, -, -, -, -, pending⟩ := raiseOffline_frame t c
  exact pending.trans h

theorem SameQueue.raiseSaturation (h : s.SameQueue t) : s.SameQueue t.raiseSaturation :=
  .ite ((h.setWeigh _).raiseHalting _) h

theorem SameQueue.goOnline (h : s.SameQueue t) : s.SameQueue t.goOnline :=
  have online : s.SameQueue t.entersOnline := h
  .raiseSaturation (.ite (online.raiseHalting _) online)

theorem SameQueue.returnOnline (h : s.SameQueue t) : s.SameQueue t.returnOnline := .ite (h.setBooks _) h

/-! ### Host commands (R172, R174) -/

theorem sameQueue_hostCommand (s : State) (code : Byte) (p : Params) (data : State → List Byte) {body : State → State}
    (run : ∀ t, s.SameQueue t → s.SameQueue (body t)) : s.SameQueue (s.hostCommand code p data body) :=
  s.hostCommand_cases code p data body (fun _ => rfl) fun _ _ => run _ rfl

theorem SameQueue.leaveReset (h : s.SameQueue t) (k : Straps) : s.SameQueue (t.leaveReset k) :=
  have read : s.SameQueue (t.strapsRead k) := h
  .ite (read.raiseOffline _) read

theorem SameQueue.configureBody (h : s.SameQueue t) (p : List Byte) : s.SameQueue (t.configureBody p) :=
  have given : s.SameQueue (t.configureWith p) := h
  .ite (given.reply _ _) (h.reply _ _)

theorem SameQueue.goOnlineBody (h : s.SameQueue t) : s.SameQueue t.goOnlineBody :=
  .ite (h.reply _ _) (.ite (h.goOnline.reply _ _) ((h.setBooks _).reply _ _))

theorem SameQueue.openBody (h : s.SameQueue t) (p : List Byte) : s.SameQueue (t.openBody p) := by
  unfold State.openBody
  split
  · exact h.reply _ _
  · exact (h.onBooks _).reply _ _

theorem SameQueue.abandonBody (h : s.SameQueue t) (n : Nat) : s.SameQueue (t.abandonBody n) := by
  unfold State.abandonBody
  split
  · exact h.reply _ _
  · exact (h.onBooks _).reply _ _

theorem SameQueue.closeBody (h : s.SameQueue t) (n : Nat) : s.SameQueue (t.closeBody n) := by
  unfold State.closeBody
  split
  · exact h.reply _ _
  · exact (h.onBooks _).reply _ _

theorem SameQueue.releaseBody (h : s.SameQueue t) (n : Nat) : s.SameQueue (t.releaseBody n) :=
  .ite (((h.onBooks _).flows (flows_modifyFill _ _)).reply _ _) (h.reply _ _)

theorem SameQueue.startBody (h : s.SameQueue t) (n : Nat) : s.SameQueue (t.startBody n) := by
  unfold State.startBody
  split
  · exact h.reply _ _
  · exact (h.flows (flows_armFill _ _ _)).reply _ _

theorem SameQueue.abortBody (h : s.SameQueue t) : s.SameQueue t.abortBody :=
  .ite ((h.flows (flows_abortFill _ _)).reply _ _) (h.reply _ _)

theorem SameQueue.voidBody (h : s.SameQueue t) (n serial : Nat) : s.SameQueue (t.voidBody n serial) := by
  unfold State.voidBody
  split
  · exact h.reply _ _
  · exact (h.onBooks _).reply _ _

theorem SameQueue.sampleBody (h : s.SameQueue t) (n serial weight : Nat) : s.SameQueue (t.sampleBody n serial weight) := by
  unfold State.sampleBody
  split
  · exact h.reply _ _
  · exact (h.onBooks _).reply _ _

theorem SameQueue.remarkBody (h : s.SameQueue t) (n serial : Nat) : s.SameQueue (t.remarkBody n serial) := by
  unfold State.remarkBody
  split
  · exact h.reply _ _
  · exact (h.flows (flows_startMark _ _ _ _)).reply _ _

theorem SameQueue.binBody (h : s.SameQueue t) (n action : Nat) (batch quantity : Bin → Nat) :
    s.SameQueue (t.binBody n action batch quantity) := .ite ((h.onBooks _).reply _ _) (h.reply _ _)

theorem SameQueue.zeroBody (h : s.SameQueue t) : s.SameQueue t.zeroBody := .ite (h.reply _ _) (h.setWeigh _)

theorem SameQueue.readInvoiceBody (h : s.SameQueue t) (n : Nat) : s.SameQueue (t.readInvoiceBody n) := by
  unfold State.readInvoiceBody
  split
  · exact h.reply _ _
  · exact h.replySpending _

theorem SameQueue.readChestBody (h : s.SameQueue t) (n selector k : Nat) : s.SameQueue (t.readChestBody n selector k) := by
  refine .ite (h.reply _ _) (.ite (h.reply _ _) ?_)
  split <;> exact h.reply _ _

theorem SameQueue.readBinBody (h : s.SameQueue t) (n : Nat) : s.SameQueue (t.readBinBody n) :=
  .ite (h.replySpending _) (h.reply _ _)

theorem SameQueue.readSheet (h : s.SameQueue t) (l : LotSheet) (part line : Nat) : s.SameQueue (t.readSheet l part line) := by
  unfold State.readSheet
  split
  · exact h.replySpending _
  · exact h.reply _ _
  · exact h.reply _ _
  · refine .ite (h.reply _ _) ?_
    split <;> exact h.reply _ _
  · exact h.reply _ _

theorem SameQueue.readLotBody (h : s.SameQueue t) (n part line : Nat) : s.SameQueue (t.readLotBody n part line) := by
  refine .ite (h.reply _ _) ?_
  split
  · exact h.reply _ _
  · exact h.readSheet _ _ _

theorem SameQueue.readNoticeBody (h : s.SameQueue t) : s.SameQueue t.readNoticeBody := by
  unfold State.readNoticeBody
  split
  · exact h.replySpending _
  · exact (h.onBooks _).replySpending _

theorem SameQueue.readFaultBody (h : s.SameQueue t) (k : Nat) : s.SameQueue (t.readFaultBody k) := by
  unfold State.readFaultBody
  split
  · exact h.reply _ _
  · exact h.replySpending _

theorem SameQueue.ackBody (h : s.SameQueue t) (k : Nat) : s.SameQueue (t.ackBody k) := by
  unfold State.ackBody
  split
  · exact h.reply _ _
  · split
    · exact h.reply _ _
    · exact (SameQueue.ite (h.onBooks _).returnOnline (h.onBooks _)).reply _ _

theorem SameQueue.readStatusBody (h : s.SameQueue t) (part n : Nat) : s.SameQueue (t.readStatusBody part n) := by
  unfold State.readStatusBody
  split
  · exact h.reply _ _
  · exact h.reply _ _
  · exact h.replySpending _
  · exact h.replySpending _
  · refine .ite (h.reply _ _) ?_
    split <;> exact h.reply _ _
  · exact h.reply _ _

/-! ### The line and the frames (R8 to R20) -/

theorem SameQueue.becomeIdle (h : s.SameQueue t) : s.SameQueue t.becomeIdle :=
  have idle := (h.setLine t.line.atIdle).onBooks (·.heardIdle t.line.framingLost)
  .ite idle.goOnline idle

theorem SameQueue.loseArbitration (h : s.SameQueue t) (char : Nat) (bit : BitRead) :
    s.SameQueue (t.loseArbitration char bit) :=
  .ite h (SameQueue.raiseOffline (by exact h) _)

theorem SameQueue.abandonFrame (h : s.SameQueue t) (char : Nat) (bit : BitRead) : s.SameQueue (t.abandonFrame char bit) :=
  SameQueue.onBooks (SameQueue.raiseHalting (by exact h) _) _

theorem SameQueue.headerEnds (h : s.SameQueue t) (samples : List Bool) (cs : List RxChar) :
    s.SameQueue (t.headerEnds samples cs) := by
  unfold State.headerEnds
  split
  · exact .ite h h
  · exact .ite h h
  all_goals exact h

theorem SameQueue.nakFrame (h : s.SameQueue t) (heard : List Bool) (x : SlotSamples) : s.SameQueue (t.nakFrame heard x) :=
  .ite h h

theorem SameQueue.receive (h : s.SameQueue t) (q : Sender) (f : Frame) (hand : Books → Books) :
    s.SameQueue (t.receive q f hand) :=
  have taken : s.SameQueue (t.takeFrame q f hand) := h
  .ite h (.ite h (.ite h (.ite taken (h.nakFrame _ _))))

theorem SameQueue.receiveReport (h : s.SameQueue t) (q : Sender) (n : Nat) (r : ChestReport) :
    s.SameQueue (t.receiveReport q n r) := .ite (h.receive _ _ _) (.ite h h)

/-! ### The field inputs, and the timed moments (R87 to R98, R103, R121) -/

theorem SameQueue.endZeroing (h : s.SameQueue t) : s.SameQueue t.endZeroing := .ite ((h.setWeigh _).reply _ _) h

theorem SameQueue.chestChanges (h : s.SameQueue t) (level : Bool) : s.SameQueue (t.chestChanges level) := by
  have seen := h.setPins { t.pins with chest := level }
  have ended : s.SameQueue (if level then (t.setPins { t.pins with chest := level }).endZeroing
      else t.setPins { t.pins with chest := level }) := .ite seen.endZeroing seen
  exact .ite ended (ended.flows (flows_chestEdgeAt _ _))

theorem SameQueue.holdBegins (h : s.SameQueue t) : s.SameQueue t.holdBegins :=
  (((h.setPins _).setFiller _).setMarker _).flows (flows_withdrawLane _)

theorem SameQueue.holdEnds (h : s.SameQueue t) : s.SameQueue t.holdEnds := by
  have free := h.setPins { t.pins with hold := false }
  exact .ite free ((SameQueue.ite free (free.flows (flows_chestEdgeAt _ _))).flows (flows_restart _))

theorem SameQueue.atMoment (h : s.SameQueue t) (wait : Option Nat) {f : State → State}
    (run : ∀ u, s.SameQueue u → s.SameQueue (f u)) : s.SameQueue (t.atMoment wait f) := by
  unfold State.atMoment
  split
  · exact h
  · exact run _ h

theorem SameQueue.goodSample (h : s.SameQueue t) : s.SameQueue t.goodSample := by
  unfold State.goodSample
  split
  · next sc x _ _ =>
    have updated := ((h.setWeigh (t.weigh.takeSample sc x.count t.books.time)).onBooks
      (·.sampleSeen (saturatedCount x.count))).flows (flows_readingUpdate _)
    exact .ite updated.raiseSaturation updated
  · exact h

theorem SameQueue.loseSamples (h : s.SameQueue t) : s.SameQueue t.loseSamples :=
  .ite ((h.setWeigh t.weigh.lose).raiseHalting _) (h.setWeigh _)

/-! ### One row -/

/-- Every command, event and frame answers, and leaves the queue. -/
theorem sameQueue_exec (i : Instr) (s : State) : ∃ t, exec i s = .next t ∧ s.SameQueue t := by
  have self := SameQueue.refl s
  have command := sameQueue_hostCommand s
  cases i with
  | configure p => exact ⟨_, rfl, command _ _ _ fun _ h => h.configureBody _⟩
  | goOnline p => exact ⟨_, rfl, command _ _ _ fun _ h => h.goOnlineBody⟩
  | openInvoice p => exact ⟨_, rfl, command _ _ _ fun _ h => h.openBody _⟩
  | abandonInvoice p => exact ⟨_, rfl, command _ _ _ fun _ h => h.abandonBody _⟩
  | closeInvoice p => exact ⟨_, rfl, command _ _ _ fun _ h => h.closeBody _⟩
  | releaseInvoice p => exact ⟨_, rfl, command _ _ _ fun _ h => h.releaseBody _⟩
  | startChest p => exact ⟨_, rfl, command _ _ _ fun _ h => h.startBody _⟩
  | abortChest p => exact ⟨_, rfl, command _ _ _ fun _ h => h.abortBody⟩
  | voidChest p => exact ⟨_, rfl, command _ _ _ fun _ h => h.voidBody _ _⟩
  | recordSample p => exact ⟨_, rfl, command _ _ _ fun _ h => h.sampleBody _ _ _⟩
  | remark p => exact ⟨_, rfl, command _ _ _ fun _ h => h.remarkBody _ _⟩
  | binFill p | binEmpty p | binWithdraw p => exact ⟨_, rfl, command _ _ _ fun _ h => h.binBody _ _ _ _⟩
  | zeroScale p => exact ⟨_, rfl, command _ _ _ fun _ h => h.zeroBody⟩
  | readInvoice p => exact ⟨_, rfl, command _ _ _ fun _ h => h.readInvoiceBody _⟩
  | readChest p => exact ⟨_, rfl, command _ _ _ fun _ h => h.readChestBody _ _ _⟩
  | readBin p => exact ⟨_, rfl, command _ _ _ fun _ h => h.readBinBody _⟩
  | readLotSheet p => exact ⟨_, rfl, command _ _ _ fun _ h => h.readLotBody _ _ _⟩
  | readNotice p => exact ⟨_, rfl, command _ _ _ fun _ h => h.readNoticeBody⟩
  | readFault p => exact ⟨_, rfl, command _ _ _ fun _ h => h.readFaultBody _⟩
  | ackFault p => exact ⟨_, rfl, command _ _ _ fun _ h => h.ackBody _⟩
  | readStatus p => exact ⟨_, rfl, command _ _ _ fun _ h => h.readStatusBody _ _⟩
  | resetStation p => exact ⟨_, rfl, command _ _ _ fun _ h => h⟩
  | unknownCommand code p => exact ⟨_, rfl, .ite self (command _ _ _ fun _ h => h)⟩
  | commandDiscarded bytes midByte => exact ⟨_, rfl, .ite (self.setPort _) self⟩
  | resetEnd station rate => exact ⟨_, rfl, .ite (self.leaveReset _) self⟩
  | lineIdle => exact ⟨_, rfl, .ite self.becomeIdle self⟩
  | arbitrationLost char bit => exact ⟨_, rfl, .ite (self.loseArbitration char bit) self⟩
  | lineDrive char bit => exact ⟨_, rfl, .ite (self.abandonFrame char bit) self⟩
  | frameFiltered samples => exact ⟨_, rfl, .ite (self.headerEnds _ _) self⟩
  | frameNaked samples => exact ⟨_, rfl, .ite (self.nakFrame _ _) self⟩
  | chestFrame => exact ⟨_, rfl, self.receiveReport _ _ _⟩
  | closeCallFrame | closedFrame | tallyFrame | claimFrame | voidFrame | sampleFrame | markFrame | binFrame
  | censusFrame => exact ⟨_, rfl, self.receive _ _ _⟩
  | censusWindowEnd n | closeWindowEnd n | extensionEnd n => exact ⟨_, rfl, self.atMoment _ fun _ h => h.onBooks _⟩
  | goodSample => exact ⟨_, rfl, self.atMoment _ fun _ h => h.goodSample⟩
  | sampleLoss => exact ⟨_, rfl, self.atMoment _ fun _ h => h.loseSamples⟩
  | settleComplete => exact ⟨_, rfl, self.atMoment _ fun _ h => h.flows (flows_completeSettle _)⟩
  | settleSlow => exact ⟨_, rfl, self.atMoment _ fun _ h => h⟩
  | zeroScaleTimeout => exact ⟨_, rfl, self.atMoment _ fun _ h => (h.setWeigh _).reply _ _⟩
  | noFlow => exact ⟨_, rfl, self.atMoment _ fun _ h => h.flows (flows_findNoFlow _)⟩
  | rejectPulseEnd => exact ⟨_, rfl, self.atMoment _ fun _ h => h.flows (flows_enterClear _)⟩
  | chestEdge level => exact ⟨_, rfl, .ite self (self.chestChanges level)⟩
  | holdActive => exact ⟨_, rfl, .ite self self.holdBegins⟩
  | holdEnd => exact ⟨_, rfl, .ite self.holdEnds self⟩
  | encoderPulse =>
    refine ⟨_, rfl, ?_⟩
    split
    · exact .ite self (self.flows (flows_pulse _ _))
    · exact self
  | shiftDone dataIn =>
    refine ⟨_, rfl, ?_⟩
    split
    · exact .ite (self.flows (flows_shiftDone _ _ _ _)) self
    · exact self
  | readResponse | responseReady | reset => exact ⟨_, rfl, self⟩
  | lineHeld | beginFrame | frameLost | attemptEnd | sampleWord | firingPulseEnd | startConfirmed =>
    exact ⟨_, rfl, .ite self self⟩

end State

/-- Settles O3: row by row. -/
theorem everyCommandLeavesTheQueue : Obligations.EveryCommandLeavesTheQueue := State.sameQueue_exec

end Sys2Proof.Machine
end
